-- ==== Sys2Proof/Word.lean ====
section
/-! DEFINITION. Bytes and the saturating count, the plainest arithmetic of the model. -/

namespace Sys2Proof

/-- One byte of a frame or of a bus transfer. -/
abbrev Byte := BitVec 8

/-- A seven-bit bus address (R30). -/
abbrev BusAddress := BitVec 7

/-- The 16-bit check of a frame (R146). -/
abbrev CheckWord := BitVec 16

/-- The value after one more increase of a counter that stays at its greatest value (section 0.7, Counters). -/
def satSucc (greatest n : Nat) : Nat := min greatest (n + 1)

end Sys2Proof
end

