-- ==== Sys2Proof/Syntax.lean ====
section
/-! DEFINITION. The commands of the hub: one constructor per row of spec/opcode_table.json. A request row carries
the tag and the body of its frame; a row that tells of a happening carries what the happening carries. -/

namespace Sys2Proof

/-- A bus, 0 to 3. -/
abbrev BusId := Fin 4
/-- A handle of the target directory, 0 to 63 (R90). -/
abbrev Handle := Fin 64
/-- A poll index, 0 to 15 (R111). -/
abbrev PollIndex := Fin 16

/-- How a queued record is named from outside its queue: a HOST record by its ticket, a poll's record by the
poll's index. -/
inductive RecordName where
  | host (ticket : Nat)
  | poll (index : PollIndex)
  deriving DecidableEq, Repr

/-- An acknowledge bit as sensed at the ninth pulse: low acknowledges the byte, high refuses it (R29). -/
inductive AckBit where
  | acknowledged
  | refused
  deriving DecidableEq, Repr

/-- What a line monitor senses (R28, R35): data falling while clock is high; clock falling, with the level of data;
clock sensed high after it was low, with the level of data. The first is a start or a repeated start, the second on a
FREE line an irregular start, or a start when data has fallen together with it. What is no condition comes by the same row, for the table has none of its own for an edge
(log entry 24). -/
inductive SensedChange where
  | dataFell
  | clockFell (dataHigh : Bool)
  | clockHigh (dataHigh : Bool)
  deriving DecidableEq, Repr

/-- How arbitration is lost (R33): data sensed low at a bit the hub sends as 1 in an address byte or a write byte, named
by its place among the eight sent, 0 first; at the test before a repeated start; at the not-acknowledge the hub gives
for a read byte; or a foreign start-seen or stop-seen. -/
inductive LossCause where
  | bitLow (place : Fin 8)
  | restartLow
  | notAcknowledge
  | startSeen
  | stopSeen
  deriving DecidableEq, Repr

/-- What of a read byte has come about (R49): its eighth bit is taken, and the byte complete; or the acknowledge bit the
hub gives for it is over (log entry 18). -/
inductive ReadPart where
  | complete (value : Byte)
  | answered
  deriving DecidableEq, Repr

/-- The commands, in the order of the table. -/
inductive Instr where
  | hello (tag : Byte) (body : List Byte)
  | hubReset (tag : Byte) (body : List Byte)
  | attentionMask (tag : Byte) (body : List Byte)
  | linkConfig (tag : Byte) (body : List Byte)
  | linkStatus (tag : Byte) (body : List Byte)
  | submit (tag : Byte) (body : List Byte)
  | cancel (tag : Byte) (body : List Byte)
  | query (tag : Byte) (body : List Byte)
  | flush (tag : Byte) (body : List Byte)
  | fetch (tag : Byte) (body : List Byte)
  | busConfig (tag : Byte) (body : List Byte)
  | busStatus (tag : Byte) (body : List Byte)
  | busReset (tag : Byte) (body : List Byte)
  | targetAdd (tag : Byte) (body : List Byte)
  | targetRemove (tag : Byte) (body : List Byte)
  | targetRelease (tag : Byte) (body : List Byte)
  | targetQuery (tag : Byte) (body : List Byte)
  | targetChanges (tag : Byte) (body : List Byte)
  | pollSet (tag : Byte) (body : List Byte)
  | pollOff (tag : Byte) (body : List Byte)
  | pollRead (tag : Byte) (body : List Byte)
  | listenSet (tag : Byte) (body : List Byte)
  | pageSet (tag : Byte) (body : List Byte)
  | inboundRead (tag : Byte) (body : List Byte)
  | unknownKind (kind tag : Byte) (body : List Byte)
  | byteReceived (value : Byte)
  | gapTimerExpiry
  | frameSent
  | powerOn
  | resetPinAssert
  | resetPinRelease
  | deadlineExpiry (ticket : Nat)
  | retryGapEnd (name : RecordName)
  | pollPeriodExpiry (index : PollIndex)
  | probeTimerExpiry (handle : Handle)
  | startSeen (bus : BusId) (change : SensedChange)
  | stopSeen (bus : BusId)
  | busFree (bus : BusId)
  | stuck (bus : BusId)
  | startMade (bus : BusId)
  | addressByteAnswered (bus : BusId) (ack : AckBit)
  | writeByteAnswered (bus : BusId) (ack : AckBit)
  | readByteTaken (bus : BusId) (part : ReadPart)
  | repeatedStartMade (bus : BusId)
  | stopReleased (bus : BusId) (dataRose : Bool)
  | arbitrationLost (bus : BusId) (cause : LossCause)
  | probeAnswered (bus : BusId) (ack : AckBit)
  | stall (bus : BusId)
  | cleared (bus : BusId)
  | clearingFailed (bus : BusId)
  | addressByteHeard (bus : BusId) (value : Byte)
  | writeInByte (bus : BusId) (value : Byte)
  | readOutByte (bus : BusId) (ack : AckBit)
  deriving DecidableEq, Repr

/-- The request kinds of Table 10-1. -/
inductive Kind where
  | hello | hubReset | attentionMask | linkConfig | linkStatus
  | submit | cancel | query | flush | fetch
  | busConfig | busStatus | busReset
  | targetAdd | targetRemove | targetRelease | targetQuery | targetChanges
  | pollSet | pollOff | pollRead
  | listenSet | pageSet | inboundRead
  deriving DecidableEq, Repr

end Sys2Proof
end

