-- ==== Sys2Proof/Decode.lean ====
section
/-! DEFINITION. The numeric values of the request kinds (Table 10-1), and the reading of a word by the table's bits:
spec/opcode_table.json gives no row any bits, so no word spells a command (log entry 22). -/

namespace Sys2Proof

/-- The numeric value of a kind, Table 10-1. -/
def Kind.code : Kind → Byte
  | .hello => 0x01#8 | .hubReset => 0x02#8 | .attentionMask => 0x03#8 | .linkConfig => 0x04#8 | .linkStatus => 0x05#8
  | .submit => 0x10#8 | .cancel => 0x11#8 | .query => 0x12#8 | .flush => 0x13#8 | .fetch => 0x14#8
  | .busConfig => 0x20#8 | .busStatus => 0x21#8 | .busReset => 0x22#8
  | .targetAdd => 0x30#8 | .targetRemove => 0x31#8 | .targetRelease => 0x32#8 | .targetQuery => 0x33#8
  | .targetChanges => 0x34#8
  | .pollSet => 0x40#8 | .pollOff => 0x41#8 | .pollRead => 0x42#8
  | .listenSet => 0x50#8 | .pageSet => 0x51#8 | .inboundRead => 0x52#8

/-- Every kind of Table 10-1. -/
def Kind.all : List Kind :=
  [.hello, .hubReset, .attentionMask, .linkConfig, .linkStatus, .submit, .cancel, .query, .flush, .fetch,
   .busConfig, .busStatus, .busReset, .targetAdd, .targetRemove, .targetRelease, .targetQuery, .targetChanges,
   .pollSet, .pollOff, .pollRead, .listenSet, .pageSet, .inboundRead]

/-- A kind byte that Table 10-1 lists. -/
def kindListed (k : Byte) : Bool := Kind.all.any fun x => x.code == k

/-- The command that a word spells by the table's bits. No row of the table gives bits: no word spells one. -/
def decodeTableWord (_nbits _w : Nat) : Option Instr := none

end Sys2Proof
end

