-- ==== Sys2Proof/Config.lean ====
section
/-! DEFINITION. The capacities the manual fixes and the free values of the model. -/

namespace Sys2Proof.Config

/-- Transaction records of the pool (R2). -/
def poolRecords : Nat := 48
/-- Places of one bus queue (R7). -/
def queuePlaces : Nat := 16
/-- Places of the result store (R79). -/
def storePlaces : Nat := 24
/-- Places of the inbound queue, reservations among them (R133). -/
def inboundPlaces : Nat := 8
/-- Places of the intake (R152). -/
def intakePlaces : Nat := 6
/-- Reply slots (section 8.5). -/
def replySlots : Nat := 8
/-- Entries of the reply cache (R154). -/
def cacheEntries : Nat := 8
/-- Room for records in a FETCH or INBOUND_READ reply (R83, R142). -/
def recordBytes : Nat := 236
/-- Losses of arbitration at which a record is decided LOST_BUS (R10). -/
def lossLimit : Nat := 8
/-- Urgent run count from which a ROUTINE record is chosen first (R12). -/
def urgentRunLimit : Nat := 8
/-- Bytes a reception stores or counts (R135, R136). -/
def receptionBytes : Nat := 32
/-- The longest body of a frame (Table 8-2). -/
def maxBody : Nat := 240
/-- The gap, in ms, that a frame may hold and still go on (R148). -/
def gapLimit : Nat := 20

/-- FREE VALUE (log entry 9). R155: a notice that becomes pending and a reply that is placed while the
transmitter is idle may fall together, and either may be taken first. `replyFirst k` says which the `k`-th
such meeting takes: the reply when `true`. Nothing in Lean can evaluate it. -/
opaque replyFirst : Nat → Bool

/-- FREE VALUE (log entry 11). R42: after a reset the lines are at whatever level the other parties leave them.
`releasedHigh k b` says whether both lines of bus `b` are sensed high when the `k`-th such release ends. -/
opaque releasedHigh : Nat → Nat → Bool

/-- FREE VALUE (log entry 26). Which of the addresses the hub may send it sends for a probe it still holds when the probe's
entry has none to give (R101, R103): `absentAddress h t` for the handle `h` at the time `t`. -/
opaque absentAddress : Nat → Nat → Nat

end Sys2Proof.Config
end

