-- ==== Sys2Proof/Machine/State.lean ====
section
/-! DEFINITION. The state of the hub as plain data, its faults and refusals, and the state right after reset.
A transaction record stands where it is: in a bus queue (QUEUED, WAITING), in an engine (ACTIVE), in the slot wait list
(DECIDED); what is nowhere is FREE, or RESERVED when a poll holds it (log entry 20). -/

namespace Sys2Proof.Machine

/-- The reasons a command stops the machine. -/
inductive Fault where
  /-- Raised by a request command whose operands are those of no frame: a body of more than 240 bytes (Table 8-2), or
  an UNKNOWN_KIND command whose kind the table lists or is no request kind. Safe: the hub never sees such a request
  (log entry 19). -/
  | illFormed
  deriving DecidableEq, Repr

/-- The reasons a command is refused. -/
inductive Refusal where
  /-- Raised by an arm of `exec` that has no meaning yet; no arm is one. Safe. -/
  | notModelled (mnemonic : String)
  deriving DecidableEq, Repr

/-! ### Transactions (chapter 1) -/

/-- The class of a record: the sub-list of its bus queue (R7). -/
inductive TxnClass where
  | urgent
  | routine
  deriving DecidableEq, Repr

/-- The ten outcomes (R1). -/
inductive TxnOutcome where
  | ok | noTarget | dataRefused | lostBus | stalled | busFault | expired | cancelled | targetOut | abandoned
  deriving DecidableEq, Repr

/-- One segment of a transaction: the bytes to write, or the number of bytes to read (Table 1-1). -/
inductive Segment where
  | write (bytes : List Byte)
  | read (length : Nat)
  deriving DecidableEq, Repr

/-- The origin of a record. A HOST record carries its ticket; a POLL record its poll's index and the orphaned mark
(Table 1-1). -/
inductive Origin where
  | host (ticket : Nat)
  | poll (index : PollIndex) (orphaned : Bool)
  deriving DecidableEq, Repr

/-- What the current attempt has achieved (R1), with the engine's place in the record (R43). -/
structure Progress where
  segmentInHand : Nat
  byteInHand : Nat
  segmentsDone : Nat
  bytesDone : Nat
  readBytes : List Byte
  deriving DecidableEq, Repr

/-- Progress as every selection sets it (R1). -/
def Progress.zero : Progress :=
  { segmentInHand := 0, byteInHand := 0, segmentsDone := 0, bytesDone := 0, readBytes := [] }

/-- A transaction record that is QUEUED, WAITING, ACTIVE or DECIDED (Table 1-1, R77). `notBefore` is present exactly
while a queued record is WAITING. -/
structure Txn where
  origin : Origin
  handle : Handle
  bus : BusId
  cls : TxnClass
  segments : List Segment
  deadline : Option Nat
  attemptsLeft : Nat
  attemptsUsed : Nat
  lostArbitrations : Nat
  notBefore : Option Nat
  cancelPending : Bool
  progress : Progress
  deriving DecidableEq, Repr

/-- A DECIDED record of the slot wait list, with its outcome (R81). -/
structure Decided where
  record : Txn
  outcome : TxnOutcome
  deriving DecidableEq, Repr

/-- A completion record (Table 4-1); no read data is the empty list. -/
structure Completion where
  ticket : Nat
  handle : Handle
  outcome : TxnOutcome
  attemptsUsed : Nat
  lostArbitrations : Nat
  segmentReached : Nat
  bytesDone : Nat
  readData : List Byte
  deriving DecidableEq, Repr

/-! ### The two-wire line and the engines (chapters 2, 3 and 7) -/

/-- The line state (R36). -/
inductive LineState where
  | free
  | held
  deriving DecidableEq, Repr

/-- What the hub does to one of its open-drain outputs (R27). -/
inductive Drive where
  | released
  | low
  deriving DecidableEq, Repr

/-- A line monitor (R35). `bothHigh` is the level it last sensed, both lines high or not; `freeRaised` says that
bus-free has been raised for the interval in progress (R37). -/
structure Monitor where
  line : LineState
  bothHigh : Bool
  freeTimer : Nat
  freeRaised : Bool
  freeTime : Nat
  stuckTimer : Nat
  stuckLimit : Nat
  deriving DecidableEq, Repr

/-- WRITE or READ: what the other controller does in a reception (Table 7-3). -/
inductive ReceptionKind where
  | write
  | read
  deriving DecidableEq, Repr

/-- A reception in progress, the record in making (Table 7-3). `closed`: the other controller refused a byte, and the
engine gives no further bits (R136). -/
structure Reception where
  kind : ReceptionKind
  broadcast : Bool
  truncated : Bool
  count : Nat
  data : List Byte
  pageCopy : List Byte
  closed : Bool
  deriving DecidableEq, Repr

/-- How a reception ended (Table 7-4). -/
inductive EndedBy where
  | stop
  | restart
  | abort
  deriving DecidableEq, Repr

/-- An inbound record (Table 7-5). -/
structure Inbound where
  bus : BusId
  kind : ReceptionKind
  broadcast : Bool
  truncated : Bool
  endedBy : EndedBy
  count : Nat
  data : List Byte
  deriving DecidableEq, Repr

/-- The result phase STOP was entered for (R51): a decision, the refusal of a first address byte, or nothing more,
for a probe. -/
inductive StopResult where
  | decision (outcome : TxnOutcome)
  | addressRefused
  | probeDone
  deriving DecidableEq, Repr

/-- The phases of DRIVING (R43). In RECEIVE the hub takes the bits of a byte, or gives the acknowledge bit of the byte
just taken, which it acknowledges or refuses (R49). -/
inductive DrivePhase where
  | start
  | address
  | send
  | receive (given : Option AckBit)
  | restart
  | stop (result : StopResult)
  deriving DecidableEq, Repr

/-- The work an engine holds: an ACTIVE record or a probe, named by its entry (R43). -/
inductive Work where
  | record (t : Txn)
  | probe (h : Handle)
  deriving DecidableEq, Repr

/-- Where the clearing sequence stands (R65): the engine waits for clock to be sensed high; it has found data low after
the ninth pulse; it has made its start and holds data low; it has released data for its stop. -/
inductive ClearingStage where
  | waiting
  | exhausted
  | starting
  | stopping
  deriving DecidableEq, Repr

/-- An engine's state (Table 3-1) with what it holds in it (R43): work in IDLE before its start and in DRIVING, a
stalled record, the pulse count and the stage of the sequence in CLEARING, the open reception in ANSWERING. `hearing`:
an address byte that follows a start is under way, of which these first bits are known (R58, R60). The phase in
ANSWERING is the reception's kind. -/
inductive Engine where
  | off
  | idle (work : Option Work)
  | occupied (hearing : Option (List Bool))
  | driving (phase : DrivePhase) (work : Work)
  | answering (reception : Reception)
  | clearing (stalled : Option Txn) (pulses : Nat) (stage : ClearingStage)
  | faulted
  deriving DecidableEq, Repr

/-- The speed classes (R34). -/
inductive SpeedClass where
  | standard
  | fast
  | fastPlus
  deriving DecidableEq, Repr

/-- Everything one bus has: its engine and settings (R43), its outputs (R27), its line monitor (R35), its queue and
urgent run count (R7, R13), its counters and pending event counts (R72, R73) and its responder settings (R129).
`stretchTimer` counts the wait for clock high in DRIVING and CLEARING (R63, R65; log entry 23). `sending` is the byte
the hub places on the bus: an address byte (R30, R46, R53), a write byte (R48) or a byte of READ_OUT (R136); `bitsPlaced`
counts the bits of it that have been placed on data, the last of them standing there, and is 9 once data is released for
the ninth pulse (R29; log entry 12). -/
structure Bus where
  engine : Engine
  speed : SpeedClass
  stretchLimit : Nat
  stretchTimer : Nat
  clockOut : Drive
  dataOut : Drive
  sending : Option Byte
  bitsPlaced : Nat
  monitor : Monitor
  urgent : List Txn
  routine : List Txn
  urgentRun : Nat
  okCompletions : Nat
  arbitrationLosses : Nat
  stalls : Nat
  clearings : Nat
  faults : Nat
  pendingCleared : Nat
  pendingFaulted : Nat
  pendingRecovered : Nat
  ownAddress : Option BusAddress
  broadcastAccept : Bool
  page : List Byte
  deriving DecidableEq, Repr

/-! ### The target directory and the polls (chapters 5 and 6) -/

/-- The states of an entry in use (Table 5-1). -/
inductive EntryState where
  | new
  | present
  | suspect
  | quarantined
  deriving DecidableEq, Repr

/-- The probe status, with the probe timer while it is TIMING (Table 5-1). -/
inductive ProbeStatus where
  | none
  | timing (remaining : Nat)
  | due
  | issued
  deriving DecidableEq, Repr

/-- A directory entry in use (Table 5-1). `changed` is its membership of the directory change set (R105). -/
structure Entry where
  state : EntryState
  bus : BusId
  address : BusAddress
  attempts : Nat
  retryGap : Nat
  threshold : Nat
  probeInterval : Nat
  refusals : Nat
  probe : ProbeStatus
  changed : Bool
  deriving DecidableEq, Repr

/-- A poll's policy (R111). -/
inductive Policy where
  | change
  | every
  deriving DecidableEq, Repr

/-- ACTIVE with its period timer, or PAUSED (Table 6-1). -/
inductive PollState where
  | active (remaining : Nat)
  | paused
  deriving DecidableEq, Repr

/-- A poll entry that is not OFF (Table 6-1). `changed` is its membership of the changed-poll set (R125). -/
structure Poll where
  state : PollState
  handle : Handle
  writeBytes : List Byte
  readLength : Nat
  mask : List Byte
  period : Nat
  policy : Policy
  cls : TxnClass
  lastValue : Option (List Byte)
  lastOutcome : Option TxnOutcome
  lateCount : Nat
  failCount : Nat
  changed : Bool
  deriving DecidableEq, Repr

/-! ### The host link, the request handler and the attention unit (chapters 8 and 9) -/

/-- The four link rates (Table 8-1). -/
inductive LinkRate where
  | r115200
  | r230400
  | r460800
  | r921600
  deriving DecidableEq, Repr

/-- The receiver's states (R147). -/
inductive ReceiverState where
  | hunt
  | sync
  | header
  | body
  | check
  deriving DecidableEq, Repr

/-- The frame receiver (R147, R148): its state, the parts of the frame in assembly as they come, the running check and
the gap timer. -/
structure Receiver where
  state : ReceiverState
  kind : Option Byte
  tag : Option Byte
  length : Nat
  body : List Byte
  running : CheckWord
  checkHigh : Option Byte
  gapTimer : Nat
  deriving DecidableEq, Repr

/-- The five discard counters (R149). -/
structure Discards where
  gap : Nat
  length : Nat
  check : Nat
  kind : Nat
  duplicate : Nat
  deriving DecidableEq, Repr

/-- A request of the intake: kind, tag and body of its frame, the length being the body's (R152). -/
structure Request where
  kind : Byte
  tag : Byte
  body : List Byte
  deriving DecidableEq, Repr

/-- A frame the hub sends, less its sync and check, which its parts determine (R146). -/
structure Frame where
  kind : Byte
  tag : Byte
  body : List Byte
  deriving DecidableEq, Repr

/-- What the end of a reply brings about: the link rate switch (R156) or the hub's reset (R165). -/
inductive ReplyMark where
  | plain
  | switchPoint
  | resetPoint
  deriving DecidableEq, Repr

/-- A reply in a slot. -/
structure Reply where
  frame : Frame
  mark : ReplyMark
  deriving DecidableEq, Repr

/-- An entry of the reply cache (R154). -/
structure CacheEntry where
  tag : Byte
  kind : Byte
  frame : Frame
  deriving DecidableEq, Repr

/-- The transmitter: idle, sending the reply of a slot, or sending the notice of the attention slot (R155). -/
inductive Transmitter where
  | idle
  | reply (r : Reply)
  | notice (f : Frame)
  deriving DecidableEq, Repr

/-- The request handler's state (R161). -/
inductive Handler where
  | ready
  | halted
  deriving DecidableEq, Repr

/-- A set of attention flags (R168). -/
structure FlagSet where
  restarted : Bool
  results : Bool
  inbound : Bool
  polls : Bool
  targets : Bool
  buses : Bool
  deriving DecidableEq, Repr

/-- The hub. `pending` is the queue of commands that wait; `freeIndex` counts the free values taken (log entry 9);
`time` is the time base in µs, of which the millisecond time base is the thousandth part (section 0.7); `resetLow`
is the level of the RESET# pin. -/
structure State where
  pending : List Instr
  freeIndex : Nat
  time : Nat
  resetLow : Bool
  rate : LinkRate
  pendingRate : Option LinkRate
  receiver : Receiver
  discards : Discards
  intake : List Request
  filled : List Reply
  cache : List CacheEntry
  transmitter : Transmitter
  handler : Handler
  restarted : Bool
  mask : FlagSet
  announced : FlagSet
  nextTicket : Nat
  buses : Vector Bus 4
  store : List Completion
  waitList : List Decided
  directory : Vector (Option Entry) 64
  polls : Vector (Option Poll) 16
  inbound : List Inbound
  deriving DecidableEq, Repr

/-! ### Values after reset -/

/-- A line monitor after reset (R42). The level sensed is a choice (log entry 11). -/
def Monitor.reset (bothHigh : Bool) : Monitor :=
  { line := .held, bothHigh := bothHigh, freeTimer := 0, freeRaised := false, freeTime := 50,
    stuckTimer := 0, stuckLimit := 35 }

/-- A bus after reset (R26, R27, R34, R42, R75, R143). -/
def Bus.reset (bothHigh : Bool) : Bus :=
  { engine := .off, speed := .standard, stretchLimit := 25, stretchTimer := 0, clockOut := .released,
    dataOut := .released, sending := none, bitsPlaced := 0,
    monitor := Monitor.reset bothHigh, urgent := [], routine := [], urgentRun := 0,
    okCompletions := 0, arbitrationLosses := 0, stalls := 0, clearings := 0, faults := 0,
    pendingCleared := 0, pendingFaulted := 0, pendingRecovered := 0,
    ownAddress := none, broadcastAccept := false, page := [] }

/-- The receiver after reset (Table 8-6): HUNT, and no frame in assembly. THE MODEL'S CHOICE (log entry 32): what the fields of
a frame hold while there is none, the length 0 and the running check FFFFh, and the stopped gap timer, 0. -/
def Receiver.reset : Receiver :=
  { state := .hunt, kind := none, tag := none, length := 0, body := [], running := 0xFFFF#16, checkHigh := none,
    gapTimer := 0 }

/-- The discard counters after reset (R149). -/
def Discards.reset : Discards := { gap := 0, length := 0, check := 0, kind := 0, duplicate := 0 }

/-- No flag. -/
def FlagSet.empty : FlagSet :=
  { restarted := false, results := false, inbound := false, polls := false, targets := false, buses := false }

/-- All six flags, the mask after reset (R169). -/
def FlagSet.all : FlagSet :=
  { restarted := true, results := true, inbound := true, polls := true, targets := true, buses := true }

/-- The values every block takes at reset: R26, R42, R75, R89, R110, R128, R143, R159, R161, R169 and R170, with
RESTARTED raised (R167) and RESET# high. -/
def State.resetValues : State :=
  { pending := [], freeIndex := 0, time := 0, resetLow := false,
    rate := .r115200, pendingRate := none, receiver := Receiver.reset, discards := Discards.reset,
    intake := [], filled := [], cache := [], transmitter := .idle, handler := .ready,
    restarted := true, mask := FlagSet.all, announced := FlagSet.empty,
    nextTicket := 1, buses := Vector.replicate 4 (Bus.reset true), store := [], waitList := [],
    directory := Vector.replicate 64 none, polls := Vector.replicate 16 none, inbound := [] }

/-- The hub right after reset. RESTARTED, raised and not announced, makes a notice pending at once, and the idle
transmitter chooses it as its first frame (R159, R166, R167; log entry 21): kind FFh, tag 0, the flag and five counts of
0 (R171), with RESTARTED announced. -/
def State.reset : State :=
  { State.resetValues with
    transmitter := .notice
      { kind := 0xFF#8, tag := 0x00#8, body := [0x01#8, 0x00#8, 0x00#8, 0x00#8, 0x00#8, 0x00#8] }
    announced := { FlagSet.empty with restarted := true } }

end Sys2Proof.Machine
end

