-- ==== Sys2Proof/Machine/Operands.lean ====
section
/-! DEFINITION. The operand forms: the fields of request bodies and of replies (chapter 10), their numeric values
(Tables 10-2 and 10-3), and the BAD_FORMAT test of each kind (R175). -/

namespace Sys2Proof.Machine

/-! ### Numbers in bodies (R173) -/

def byteOf (n : Nat) : Byte := BitVec.ofNat 8 n

/-- A field of two bytes, most significant first. -/
def bytes16 (n : Nat) : List Byte := [byteOf (n / 256), byteOf n]

/-- A field of three bytes, most significant first. -/
def bytes24 (n : Nat) : List Byte := [byteOf (n / 65536), byteOf (n / 256), byteOf n]

def nat16 (high low : Byte) : Nat := high.toNat * 256 + low.toNat

def nat24 (high middle low : Byte) : Nat := (high.toNat * 256 + middle.toNat) * 256 + low.toNat

/-! ### Reply codes (Tables 9-2 and 10-2) -/

inductive ReplyCode where
  | ok | noRoom | unknownKind | badFormat | badValue | unknownHandle | quarantined | busOff | queueFull
  | poolEmpty | unknownTicket | tooLate | busy | inUse | tableFull | duplicate | conflict
  deriving DecidableEq, Repr

def ReplyCode.value : ReplyCode → Byte
  | .ok => 0x00#8 | .noRoom => 0x01#8 | .unknownKind => 0x02#8 | .badFormat => 0x03#8 | .badValue => 0x04#8
  | .unknownHandle => 0x05#8 | .quarantined => 0x06#8 | .busOff => 0x07#8 | .queueFull => 0x08#8
  | .poolEmpty => 0x09#8 | .unknownTicket => 0x0A#8 | .tooLate => 0x0B#8 | .busy => 0x0C#8 | .inUse => 0x0D#8
  | .tableFull => 0x0E#8 | .duplicate => 0x0F#8 | .conflict => 0x10#8

/-! ### Enumerated values (Table 10-3) -/

def TxnOutcome.value : TxnOutcome → Byte
  | .ok => 0x00#8 | .noTarget => 0x01#8 | .dataRefused => 0x02#8 | .lostBus => 0x03#8 | .stalled => 0x04#8
  | .busFault => 0x05#8 | .expired => 0x06#8 | .cancelled => 0x07#8 | .targetOut => 0x08#8 | .abandoned => 0x09#8

/-- A last outcome, FFh when absent. -/
def outcomeField : Option TxnOutcome → Byte
  | some o => o.value
  | none => 0xFF#8

/-- Where a transaction stands, as CANCEL and QUERY report it. -/
inductive TxnStanding where
  | queued | waiting | active | decided | stored
  deriving DecidableEq, Repr

def TxnStanding.value : TxnStanding → Byte
  | .queued => 0x01#8 | .waiting => 0x02#8 | .active => 0x03#8 | .decided => 0x04#8 | .stored => 0x05#8

/-- A directory state, UNUSED for no entry. -/
def entryStateField : Option EntryState → Byte
  | none => 0x00#8
  | some .new => 0x01#8
  | some .present => 0x02#8
  | some .suspect => 0x03#8
  | some .quarantined => 0x04#8

def ProbeStatus.value : ProbeStatus → Byte
  | .none => 0x00#8 | .timing _ => 0x01#8 | .due => 0x02#8 | .issued => 0x03#8

def PollState.value : PollState → Byte
  | .active _ => 0x01#8 | .paused => 0x02#8

/-- A poll's state, OFF for no entry. -/
def pollStateField : Option PollState → Byte
  | none => 0x00#8
  | some p => p.value

def Engine.value : Engine → Byte
  | .off => 0x00#8 | .idle _ => 0x01#8 | .occupied _ => 0x02#8 | .driving _ _ => 0x03#8 | .answering _ => 0x04#8
  | .clearing _ _ _ => 0x05#8 | .faulted => 0x06#8

/-- The phase field of BUS_STATUS, 00h when absent. -/
def Engine.phaseField : Engine → Byte
  | .driving .start _ => 0x01#8
  | .driving .address _ => 0x02#8
  | .driving .send _ => 0x03#8
  | .driving (.receive _) _ => 0x04#8
  | .driving .restart _ => 0x05#8
  | .driving (.stop _) _ => 0x06#8
  | .answering r => match r.kind with
    | .write => 0x07#8
    | .read => 0x08#8
  | .off => 0x00#8
  | .idle _ => 0x00#8
  | .occupied _ => 0x00#8
  | .clearing _ _ _ => 0x00#8
  | .faulted => 0x00#8

def TxnClass.value : TxnClass → Byte
  | .routine => 0x00#8 | .urgent => 0x01#8

def classOf? (b : Byte) : Option TxnClass :=
  if b = 0x00#8 then some .routine else if b = 0x01#8 then some .urgent else none

def policyOf? (b : Byte) : Option Policy :=
  if b = 0x00#8 then some .change else if b = 0x01#8 then some .every else none

/-- An enable or broadcast accept byte: 00h off, 01h on. -/
def switchOf? (b : Byte) : Option Bool :=
  if b = 0x00#8 then some false else if b = 0x01#8 then some true else none

def switchValue (on : Bool) : Byte := if on then 0x01#8 else 0x00#8

def speedOf? (b : Byte) : Option SpeedClass :=
  if b = 0x00#8 then some .standard else if b = 0x01#8 then some .fast else if b = 0x02#8 then some .fastPlus else none

def EndedBy.value : EndedBy → Byte
  | .stop => 0x00#8 | .restart => 0x01#8 | .abort => 0x02#8

/-- A link rate in bit/s (Table 8-1). -/
def LinkRate.bitsPerSecond : LinkRate → Nat
  | .r115200 => 115200 | .r230400 => 230400 | .r460800 => 460800 | .r921600 => 921600

def rateOf? (n : Nat) : Option LinkRate :=
  if n = 115200 then some .r115200 else if n = 230400 then some .r230400
  else if n = 460800 then some .r460800 else if n = 921600 then some .r921600 else none

/-! ### Fields that name buses, handles, polls, addresses and tickets -/

def busOf? (b : Byte) : Option BusId := if h : b.toNat < 4 then some ⟨b.toNat, h⟩ else none

def handleOf? (b : Byte) : Option Handle := if h : b.toNat < 64 then some ⟨b.toNat, h⟩ else none

def pollOf? (b : Byte) : Option PollIndex := if h : b.toNat < 16 then some ⟨b.toNat, h⟩ else none

/-- A target address, 08h to 77h (R30). -/
def addressOf? (b : Byte) : Option BusAddress :=
  if 0x08 ≤ b.toNat ∧ b.toNat ≤ 0x77 then some (BitVec.ofNat 7 b.toNat) else none

/-- An own address field: 00h is absent, 08h to 77h is present, anything else is out of range (Table 10-4). -/
def ownAddressOf? (b : Byte) : Option (Option BusAddress) :=
  if b = 0x00#8 then some none else (addressOf? b).map some

/-- An address byte's seven address bits and its direction (R30). -/
def addressBits (b : Byte) : BusAddress := BitVec.ofNat 7 (b.toNat / 2)

def directionRead (b : Byte) : Bool := decide (b.toNat % 2 = 1)

/-- The address byte of an address and a direction, read or write (R30). -/
def addressByte (a : BusAddress) (read : Bool) : Byte := byteOf (2 * a.toNat + if read then 1 else 0)

/-- The eight bits of a byte in the order sent, most significant first (R29). -/
def bitsOf (b : Byte) : List Bool := [7, 6, 5, 4, 3, 2, 1, 0].map b.getLsbD

/-! ### SUBMIT (Table 10-4, R175) -/

/-- A segment as the body writes it: direction byte, length byte, and the bytes that follow for direction 00h. -/
structure SegmentField where
  direction : Byte
  length : Byte
  bytes : List Byte
  deriving DecidableEq, Repr

structure SubmitFields where
  handle : Byte
  cls : Byte
  deadline : Option Nat
  attempts : Option Nat
  segments : List SegmentField
  deriving DecidableEq, Repr

/-- Reads `n` segments that take up the rest of the body exactly. -/
def segmentFields : Nat → List Byte → Option (List SegmentField)
  | 0, [] => some []
  | 0, _ :: _ => none
  | n + 1, d :: l :: rest =>
    if d = 0x00#8 then
      if l.toNat ≤ rest.length then
        (segmentFields n (rest.drop l.toNat)).map fun fs => { direction := d, length := l, bytes := rest.take l.toNat } :: fs
      else none
    else (segmentFields n rest).map fun fs => { direction := d, length := l, bytes := [] } :: fs
  | _ + 1, [_] => none
  | _ + 1, [] => none

/-- A two-byte field when it is marked present, and the rest of the body. -/
def optional16 (present : Bool) (rest : List Byte) : Option (Option Nat × List Byte) :=
  match present, rest with
  | false, r => some (none, r)
  | true, h :: l :: r => some (some (nat16 h l), r)
  | true, [_] => none
  | true, [] => none

/-- A one-byte field when it is marked present, and the rest of the body. -/
def optional8 (present : Bool) (rest : List Byte) : Option (Option Nat × List Byte) :=
  match present, rest with
  | false, r => some (none, r)
  | true, b :: r => some (some b.toNat, r)
  | true, [] => none

/-- The fields of a well-formed SUBMIT body; none is BAD_FORMAT. -/
def submitFields (body : List Byte) : Option SubmitFields :=
  match body with
  | handle :: cls :: options :: rest =>
    if 6 ≤ body.length ∧ body.length ≤ 240 ∧ options.toNat < 4 then
      match optional16 (options.getLsbD 0) rest with
      | some (deadline, rest) =>
        match optional8 (options.getLsbD 1) rest with
        | some (attempts, n :: rest) =>
          if 1 ≤ n.toNat ∧ n.toNat ≤ 4 then
            (segmentFields n.toNat rest).map fun segments =>
              { handle := handle, cls := cls, deadline := deadline, attempts := attempts, segments := segments }
          else none
        | some (_, []) => none
        | none => none
      | none => none
    else none
  | [_, _] => none
  | [_] => none
  | [] => none

/-- A segment whose direction is WRITE or READ and whose length is 1 to 32 (R14). -/
def segmentOf? (f : SegmentField) : Option Segment :=
  if 1 ≤ f.length.toNat ∧ f.length.toNat ≤ 32 then
    if f.direction = 0x00#8 then some (.write f.bytes)
    else if f.direction = 0x01#8 then some (.read f.length.toNat) else none
  else none

def Segment.length : Segment → Nat
  | .write bytes => bytes.length
  | .read n => n

def segmentsLength (ss : List Segment) : Nat := (ss.map Segment.length).sum

def optionInRange (lo hi : Nat) : Option Nat → Bool
  | none => true
  | some n => decide (lo ≤ n ∧ n ≤ hi)

/-- A SUBMIT whose every field is in its range. -/
structure SubmitValues where
  handle : Handle
  cls : TxnClass
  deadline : Option Nat
  attempts : Option Nat
  segments : List Segment
  deriving DecidableEq, Repr

/-- The values of a SUBMIT; none is BAD_VALUE (R14, check 1). -/
def submitValues (f : SubmitFields) : Option SubmitValues :=
  match handleOf? f.handle, classOf? f.cls, f.segments.mapM segmentOf? with
  | some handle, some cls, some segments =>
    if segmentsLength segments ≤ 64 && optionInRange 1 65000 f.deadline && optionInRange 1 8 f.attempts then
      some { handle := handle, cls := cls, deadline := f.deadline, attempts := f.attempts, segments := segments }
    else none
  | some _, some _, none => none
  | some _, none, _ => none
  | none, _, _ => none

/-! ### TARGET_ADD (Table 10-4, R175, R92) -/

structure TargetFields where
  bus : Byte
  address : Byte
  attempts : Option Nat
  retryGap : Option Nat
  threshold : Option Nat
  probeInterval : Option Nat
  deriving DecidableEq, Repr

/-- The fields of a well-formed TARGET_ADD body; none is BAD_FORMAT. -/
def targetFields (body : List Byte) : Option TargetFields :=
  match body with
  | bus :: address :: terms :: rest =>
    if terms.toNat < 16 then
      match optional8 (terms.getLsbD 0) rest with
      | some (attempts, rest) =>
        match optional16 (terms.getLsbD 1) rest with
        | some (retryGap, rest) =>
          match optional8 (terms.getLsbD 2) rest with
          | some (threshold, rest) =>
            match optional16 (terms.getLsbD 3) rest with
            | some (probeInterval, []) =>
              some { bus := bus, address := address, attempts := attempts, retryGap := retryGap,
                     threshold := threshold, probeInterval := probeInterval }
            | some (_, _ :: _) => none
            | none => none
          | none => none
        | none => none
      | none => none
    else none
  | [_, _] => none
  | [_] => none
  | [] => none

/-- A new entry with the terms given or their defaults (Table 5-1, R93); none is BAD_VALUE (R92, check 1). -/
def targetEntry (f : TargetFields) : Option Entry :=
  match busOf? f.bus, addressOf? f.address with
  | some bus, some address =>
    if optionInRange 1 8 f.attempts && optionInRange 1 1000 f.retryGap && optionInRange 1 32 f.threshold
        && optionInRange 100 60000 f.probeInterval then
      some { state := .new, bus := bus, address := address, attempts := f.attempts.getD 3,
             retryGap := f.retryGap.getD 10, threshold := f.threshold.getD 4,
             probeInterval := f.probeInterval.getD 1000, refusals := 0, probe := .none, changed := false }
    else none
  | some _, none => none
  | none, _ => none

/-! ### POLL_SET (Table 10-4, R175, R113) -/

structure PollFields where
  index : Byte
  handle : Byte
  cls : Byte
  policy : Byte
  period : Nat
  writeBytes : List Byte
  readLength : Nat
  mask : List Byte
  deriving DecidableEq, Repr

/-- The fields of a well-formed POLL_SET body; none is BAD_FORMAT. -/
def pollFields (body : List Byte) : Option PollFields :=
  match body with
  | index :: handle :: cls :: policy :: ph :: pl :: plen :: rest =>
    match rest.drop plen.toNat with
    | rlen :: mask =>
      if body.length ≤ 240 ∧ mask.length = rlen.toNat then
        some { index := index, handle := handle, cls := cls, policy := policy, period := nat16 ph pl,
               writeBytes := rest.take plen.toNat, readLength := rlen.toNat, mask := mask }
      else none
    | [] => none
  | _ => none

/-- A POLL_SET whose every field is in its range. -/
structure PollValues where
  index : PollIndex
  handle : Handle
  cls : TxnClass
  policy : Policy
  period : Nat
  writeBytes : List Byte
  readLength : Nat
  mask : List Byte
  deriving DecidableEq, Repr

/-- The values of a POLL_SET; none is BAD_VALUE (R113, check 1). -/
def pollValues (f : PollFields) : Option PollValues :=
  match pollOf? f.index, handleOf? f.handle, classOf? f.cls, policyOf? f.policy with
  | some index, some handle, some cls, some policy =>
    if 10 ≤ f.period ∧ f.period ≤ 65000 ∧ f.writeBytes.length ≤ 4 ∧ 1 ≤ f.readLength ∧ f.readLength ≤ 8 then
      some { index := index, handle := handle, cls := cls, policy := policy, period := f.period,
             writeBytes := f.writeBytes, readLength := f.readLength, mask := f.mask }
    else none
  | some _, some _, some _, none => none
  | some _, some _, none, _ => none
  | some _, none, _, _ => none
  | none, _, _, _ => none

/-! ### BUS_CONFIG and LISTEN_SET (Table 10-4, R70, R130) -/

structure BusSettings where
  bus : BusId
  enable : Bool
  speed : SpeedClass
  freeTime : Nat
  stretchLimit : Nat
  stuckLimit : Nat
  deriving DecidableEq, Repr

/-- The values of a BUS_CONFIG; none is BAD_VALUE (R70, check 1). The free time is carried in steps of 10 µs. -/
def busSettings (bus enable speed free stretch stuck : Byte) : Option BusSettings :=
  match busOf? bus, switchOf? enable, speedOf? speed with
  | some b, some on, some sp =>
    if 1 ≤ free.toNat ∧ 1 ≤ stretch.toNat ∧ stretch.toNat ≤ 100 ∧ 5 ≤ stuck.toNat then
      some { bus := b, enable := on, speed := sp, freeTime := free.toNat * 10, stretchLimit := stretch.toNat,
             stuckLimit := stuck.toNat }
    else none
  | some _, some _, none => none
  | some _, none, _ => none
  | none, _, _ => none

structure ListenSettings where
  bus : BusId
  ownAddress : Option BusAddress
  broadcastAccept : Bool
  deriving DecidableEq, Repr

/-- The values of a LISTEN_SET; none is BAD_VALUE (R130, check 1). -/
def listenSettings (bus own broadcast : Byte) : Option ListenSettings :=
  match busOf? bus, ownAddressOf? own, switchOf? broadcast with
  | some b, some a, some on => some { bus := b, ownAddress := a, broadcastAccept := on }
  | some _, some _, none => none
  | some _, none, _ => none
  | none, _, _ => none

/-! ### Records carried in replies (Table 10-6) -/

def completionBytes (c : Completion) : List Byte :=
  bytes16 c.ticket ++ [byteOf c.handle.val, c.outcome.value, byteOf c.attemptsUsed, byteOf c.lostArbitrations,
    byteOf c.segmentReached, byteOf c.bytesDone, byteOf c.readData.length] ++ c.readData

/-- The size R83 counts with: nine bytes and the read data. -/
def completionSize (c : Completion) : Nat := 9 + c.readData.length

/-- Attributes: bit 0 READ, bit 1 broadcast, bit 2 truncated. -/
def inboundAttributes (r : Inbound) : Byte :=
  byteOf ((if r.kind = .read then 1 else 0) + (if r.broadcast then 2 else 0) + (if r.truncated then 4 else 0))

def inboundBytes (r : Inbound) : List Byte :=
  [byteOf r.bus.val, inboundAttributes r, r.endedBy.value, byteOf r.count] ++ r.data

/-- The size R142 counts with: four bytes and the data. -/
def inboundSize (r : Inbound) : Nat := 4 + r.data.length

def pollReportBytes (i : PollIndex) (p : Poll) : List Byte :=
  [byteOf i.val, p.state.value, outcomeField p.lastOutcome, byteOf p.lateCount, byteOf p.failCount,
    byteOf (p.lastValue.getD []).length] ++ p.lastValue.getD []

def targetReportBytes (h : Handle) (e : Entry) : List Byte := [byteOf h.val, entryStateField (some e.state)]

/-- The records a reply takes: from the head, fewer than `max`, within `size` bytes in all, stopping at the first
that fails (R83, R142); the taken and the left. -/
def takeFitting {α : Type} (size : α → Nat) : Nat → Nat → List α → List α × List α
  | 0, _, rest => ([], rest)
  | _ + 1, _, [] => ([], [])
  | max + 1, room, x :: rest =>
    if size x ≤ room then
      let r := takeFitting size max (room - size x) rest
      (x :: r.1, r.2)
    else ([], x :: rest)

end Sys2Proof.Machine
end

