-- ==== Sys2Proof/Machine/Flags.lean ====
section
/-! DEFINITION. The check of a frame (R146) and the attention flags (R168 to R172). -/

namespace Sys2Proof.Machine

/-! ### The check (R146) -/

/-- One bit enters the check register. -/
def checkBit (reg : CheckWord) (bit : Bool) : CheckWord :=
  if reg.msb = bit then reg <<< 1 else (reg <<< 1) ^^^ 0x1021#16

/-- One byte enters the check register, most significant bit first. -/
def checkByte (reg : CheckWord) (b : Byte) : CheckWord :=
  (bitsOf b).foldl checkBit reg

/-- The check register over a list of bytes, from FFFFh. -/
def checkOf (bytes : List Byte) : CheckWord := bytes.foldl checkByte 0xFFFF#16

def Frame.covered (f : Frame) : List Byte := f.kind :: f.tag :: byteOf f.body.length :: f.body

/-- A frame as it leaves on TXD (Table 8-2). -/
def Frame.wire (f : Frame) : List Byte :=
  [0xA9#8, 0x5E#8] ++ f.covered ++ bytes16 (checkOf f.covered).toNat

/-! ### Flags -/

def FlagSet.inter (a b : FlagSet) : FlagSet :=
  { restarted := a.restarted && b.restarted, results := a.results && b.results, inbound := a.inbound && b.inbound,
    polls := a.polls && b.polls, targets := a.targets && b.targets, buses := a.buses && b.buses }

/-- Every flag of `a` is in `b`. -/
def FlagSet.subset (a b : FlagSet) : Bool :=
  (!a.restarted || b.restarted) && (!a.results || b.results) && (!a.inbound || b.inbound)
    && (!a.polls || b.polls) && (!a.targets || b.targets) && (!a.buses || b.buses)

/-- The byte of a bit set (R173): bit 0 RESTARTED up to bit 5 BUSES. -/
def FlagSet.toByte (f : FlagSet) : Byte :=
  byteOf ((if f.restarted then 1 else 0) + (if f.results then 2 else 0) + (if f.inbound then 4 else 0)
    + (if f.polls then 8 else 0) + (if f.targets then 16 else 0) + (if f.buses then 32 else 0))

/-- The set a mask byte names; none when bit 6 or 7 is set (R169). -/
def flagsOf? (b : Byte) : Option FlagSet :=
  if b.toNat < 64 then
    some { restarted := b.getLsbD 0, results := b.getLsbD 1, inbound := b.getLsbD 2, polls := b.getLsbD 3,
           targets := b.getLsbD 4, buses := b.getLsbD 5 }
  else none

/-- A bus is in the bus event set while its pending event counts are not all 0 (R73). -/
def Bus.hasEvents (b : Bus) : Bool := b.pendingCleared + b.pendingFaulted + b.pendingRecovered != 0

/-- The directory change set in ascending order (R105). -/
def changedTargets (s : State) : List Handle :=
  (List.finRange 64).filter fun h => match s.directory[h] with
    | some e => e.changed
    | none => false

/-- The changed-poll set in ascending order (R125). -/
def changedPolls (s : State) : List PollIndex :=
  (List.finRange 16).filter fun i => match s.polls[i] with
    | some p => p.changed
    | none => false

/-- The bus event set (R73). -/
def eventBuses (s : State) : List BusId := (List.finRange 4).filter fun b => (s.buses[b]).hasEvents

/-- The raised flags (Table 9-3). -/
def raised (s : State) : FlagSet :=
  { restarted := s.restarted, results := !s.store.isEmpty, inbound := !s.inbound.isEmpty,
    polls := !(changedPolls s).isEmpty, targets := !(changedTargets s).isEmpty, buses := !(eventBuses s).isEmpty }

/-- The eligible flags: raised with their member set, and RESTARTED when raised (R171). -/
def eligible (s : State) : FlagSet := (raised s).inter { s.mask with restarted := true }

/-- A notice is pending while an eligible flag is not announced (R171). -/
def noticePending (s : State) : Bool := !(eligible s).subset s.announced

/-- The five counts of Table 9-3. -/
def attentionCounts (s : State) : List Byte :=
  [byteOf (s.store.length + s.waitList.length), byteOf s.inbound.length, byteOf (changedPolls s).length,
   byteOf (changedTargets s).length, byteOf (eventBuses s).length]

/-- The notice as composed now (R171, R174): kind FFh, tag 0, the eligible flags and the counts. -/
def noticeFrame (s : State) : Frame :=
  { kind := 0xFF#8, tag := 0x00#8, body := (eligible s).toByte :: attentionCounts s }

end Sys2Proof.Machine
end

