-- ==== Sys2Proof/Machine/Ops.lean ====
section
/-! DEFINITION. The shared operations: reading and writing buses, entries and polls; the pool's counts; decisions, returns
and selection; the directory's results; clearing; placing replies and choosing frames; the time base; the full reset. -/

namespace Sys2Proof.Machine

/-! ### Reading and writing the parts of the state -/

def State.bus (s : State) (b : BusId) : Bus := s.buses[b]

def State.setBus (s : State) (b : BusId) (x : Bus) : State := { s with buses := s.buses.set b x }

def State.entry (s : State) (h : Handle) : Option Entry := s.directory[h]

def State.setEntry (s : State) (h : Handle) (e : Option Entry) : State := { s with directory := s.directory.set h e }

def State.poll (s : State) (i : PollIndex) : Option Poll := s.polls[i]

def State.setPoll (s : State) (i : PollIndex) (p : Option Poll) : State := { s with polls := s.polls.set i p }

/-- A table with every member changed by `f`. -/
def mapTable {α : Type} {n : Nat} (f : α → α) (v : Vector α n) : Vector α n := ⟨⟨v.toList.map f⟩, by simp⟩

/-- Every poll that is not OFF, changed by `f`. -/
def State.mapPolls (s : State) (f : Poll → Poll) : State := { s with polls := mapTable (Option.map f) s.polls }

def allBuses : List BusId := List.finRange 4
def allHandles : List Handle := List.finRange 64
def allPolls : List PollIndex := List.finRange 16

/-- The millisecond time base (section 0.7). -/
def State.now (s : State) : Nat := s.time / 1000

/-! ### Transaction records -/

def Txn.isHost (t : Txn) : Bool := match t.origin with
  | .host _ => true
  | .poll _ _ => false

def Txn.isOrphan (t : Txn) : Bool := match t.origin with
  | .host _ => false
  | .poll _ o => o

def Txn.hasTicket (t : Txn) (k : Nat) : Bool := match t.origin with
  | .host k' => k' == k
  | .poll _ _ => false

/-- The record is poll `i`'s reserved record: of that poll and not orphaned. -/
def Txn.ofPoll (t : Txn) (i : PollIndex) : Bool := match t.origin with
  | .host _ => false
  | .poll i' o => i' == i && !o

/-- The record a name names (`Sys2Proof.RecordName`). -/
def Txn.named (t : Txn) : RecordName → Bool
  | .host k => t.hasTicket k
  | .poll i => t.ofPoll i

def Txn.ticket? (t : Txn) : Option Nat := match t.origin with
  | .host k => some k
  | .poll _ _ => none

/-- The ACTIVE record an engine holds, before its start, in DRIVING or through a clearing (R43). -/
def Engine.record? : Engine → Option Txn
  | .idle (some (.record t)) => some t
  | .driving _ (.record t) => some t
  | .clearing (some t) _ _ => some t
  | .idle (some (.probe _)) => none
  | .idle none => none
  | .driving _ (.probe _) => none
  | .clearing none _ _ => none
  | .off => none
  | .occupied _ => none
  | .answering _ => none
  | .faulted => none

/-- The engine with its record, if it holds one, changed by `f`. -/
def Engine.mapRecord (f : Txn → Txn) : Engine → Engine
  | .idle (some (.record t)) => .idle (some (.record (f t)))
  | .driving p (.record t) => .driving p (.record (f t))
  | .clearing (some t) n g => .clearing (some (f t)) n g
  | .idle (some (.probe h)) => .idle (some (.probe h))
  | .idle none => .idle none
  | .driving p (.probe h) => .driving p (.probe h)
  | .clearing none n g => .clearing none n g
  | .off => .off
  | .occupied x => .occupied x
  | .answering r => .answering r
  | .faulted => .faulted

/-- The queue in queue order: URGENT from head to tail, then ROUTINE (R22). -/
def Bus.queue (x : Bus) : List Txn := x.urgent ++ x.routine

/-- The QUEUED, WAITING and ACTIVE records of a bus. -/
def Bus.records (x : Bus) : List Txn := x.queue ++ x.engine.record?.toList

/-- The room of a bus queue (R7): 16, less the records it holds, less one while a record is ACTIVE. By that reckoning a
return from the engine leaves the room as it was, where R118's last sentence says that an expiry just before the return
sees one place fewer than one just after it. THE MODEL'S CHOICE (log entry 31): R7, which R118 cites. -/
def Bus.room (x : Bus) : Nat := Config.queuePlaces - x.records.length

def Bus.subList (x : Bus) : TxnClass → List Txn
  | .urgent => x.urgent
  | .routine => x.routine

def Bus.setSubList (x : Bus) (c : TxnClass) (l : List Txn) : Bus :=
  match c with
  | .urgent => { x with urgent := l }
  | .routine => { x with routine := l }

def Bus.joinTail (x : Bus) (t : Txn) : Bus := x.setSubList t.cls (x.subList t.cls ++ [t])

def Bus.joinHead (x : Bus) (t : Txn) : Bus := x.setSubList t.cls (t :: x.subList t.cls)

/-- The queue without the records `p` picks; the others keep their order. -/
def Bus.dropQueued (x : Bus) (p : Txn → Bool) : Bus :=
  { x with urgent := x.urgent.filter fun t => !p t, routine := x.routine.filter fun t => !p t }

/-- The queue with the records `p` picks changed in place. -/
def Bus.mapQueued (x : Bus) (p : Txn → Bool) (f : Txn → Txn) : Bus :=
  { x with urgent := x.urgent.map fun t => if p t then f t else t
           routine := x.routine.map fun t => if p t then f t else t }

/-- Every QUEUED, WAITING and ACTIVE record of the hub, bus by bus. -/
def State.records (s : State) : List Txn := allBuses.flatMap fun b => (s.bus b).records

/-- The in-flight count of an entry (R91). -/
def State.inFlight (s : State) (h : Handle) : Nat := s.records.countP fun t => t.handle == h

/-- The poll references of an entry (R91). -/
def State.pollRefs (s : State) (h : Handle) : Nat :=
  allPolls.countP fun i => match s.poll i with
    | some p => p.handle == h
    | none => false

/-- Polls that are not OFF; each holds one record of the pool (R111). -/
def State.pollsOn (s : State) : Nat := allPolls.countP fun i => (s.poll i).isSome

/-- The records taken from the pool: those of HOST transactions, those of polls and the orphaned ones (R2). -/
def State.recordsTaken (s : State) : Nat :=
  s.records.countP (fun t => t.isHost || t.isOrphan) + s.waitList.length + s.pollsOn

/-- The FREE records of the pool (R2). -/
def State.freeRecords (s : State) : Nat := Config.poolRecords - s.recordsTaken

/-- Poll `i`'s record is RESERVED: in no queue and no engine (R112). -/
def State.pollReserved (s : State) (i : PollIndex) : Bool := s.records.all fun t => !t.ofPoll i

/-- The tickets in use: of HOST records in the pool and of completion records (R6). -/
def State.ticketsInUse (s : State) : List Nat :=
  s.records.filterMap Txn.ticket? ++ s.waitList.filterMap (fun d => d.record.ticket?) ++ s.store.map Completion.ticket

/-- The ticket after `k`, with 65535 followed by 1 (R6). -/
def ticketAfter (k : Nat) : Nat := if k < 65535 then k + 1 else 1

/-- The first ticket from `k` upward that is not in use, within `fuel` tries (R6). -/
def freeTicket (used : List Nat) : Nat → Nat → Nat
  | 0, k => k
  | fuel + 1, k => if used.contains k then freeTicket used fuel (ticketAfter k) else k

/-- The ticket SUBMIT issues now: the tickets in use bound the search (R6). -/
def State.issueTicket (s : State) : Nat := freeTicket s.ticketsInUse s.ticketsInUse.length s.nextTicket

/-! ### Decisions and where they go (R18, R76 to R82) -/

/-- The completion record of a decided HOST record (R76). -/
def completionOf (d : Decided) (ticket : Nat) : Completion :=
  { ticket := ticket, handle := d.record.handle, outcome := d.outcome, attemptsUsed := d.record.attemptsUsed,
    lostArbitrations := d.record.lostArbitrations, segmentReached := d.record.progress.segmentsDone,
    bytesDone := d.record.progress.bytesDone, readData := d.record.progress.readBytes }

/-- The completion records of decided records, in order. -/
def completionsOf (ds : List Decided) : List Completion :=
  ds.filterMap fun d => d.record.ticket?.map (completionOf d)

/-- A decided HOST record enters the result store or joins the slot wait list (R80). -/
def State.deliver (s : State) (t : Txn) (o : TxnOutcome) : State :=
  let d : Decided := { record := { t with notBefore := none, cancelPending := false }, outcome := o }
  if s.store.length < Config.storePlaces ∧ s.waitList = [] then { s with store := s.store ++ completionsOf [d] }
  else { s with waitList := s.waitList ++ [d] }

/-- A HOST record decided in its queue or in place of a return: its read bytes are discarded (R16, R78). -/
def State.decideAside (s : State) (o : TxnOutcome) (t : Txn) : State :=
  s.deliver { t with progress := { t.progress with readBytes := [] } } o

/-- A byte list under a mask, bit by bit (R119). -/
def maskBytes (mask bytes : List Byte) : List Byte := List.zipWith (· &&& ·) mask bytes

/-- An instance decided OK (R119). -/
def Poll.takeOk (p : Poll) (bytes : List Byte) : Poll :=
  let report (keep : Bool) (join : Bool) : Poll :=
    { p with lastValue := if keep then p.lastValue else some bytes, lastOutcome := some .ok, failCount := 0,
             changed := p.changed || join }
  match p.lastValue with
  | none => report false true
  | some last =>
    match p.policy with
    | .every => report false true
    | .change =>
      if maskBytes p.mask last = maskBytes p.mask bytes then report true (p.lastOutcome != some .ok)
      else report false true

/-- An instance decided with an outcome other than OK (R120). -/
def Poll.takeFailure (p : Poll) (o : TxnOutcome) : Poll :=
  { p with failCount := satSucc 255 p.failCount, lastOutcome := some o,
           changed := p.changed || p.lastOutcome != some o }

/-- An instance's outcome and read bytes are handed to its poll entry (R18, R119, R120). -/
def State.pollOutcome (s : State) (i : PollIndex) (o : TxnOutcome) (bytes : List Byte) : State :=
  s.setPoll i ((s.poll i).map fun p => if o = .ok then p.takeOk bytes else p.takeFailure o)

/-- The engine's decision on its record (R18). -/
def State.conclude (s : State) (t : Txn) (o : TxnOutcome) : State :=
  match t.origin with
  | .host _ => s.deliver t o
  | .poll i false => s.pollOutcome i o t.progress.readBytes
  | .poll _ true => s

/-! ### Returns (R9, R10, R17, R20, R24, R25) -/

/-- Where a returning record is placed (Table 1-3). -/
inductive Placement where
  | tailWaiting (notBefore : Nat)
  | headQueued
  deriving DecidableEq, Repr

def Bus.place (x : Bus) (t : Txn) : Placement → Bus
  | .tailWaiting n => x.joinTail { t with notBefore := some n }
  | .headQueued => x.joinHead { t with notBefore := none }

/-- The entry of a handle is QUARANTINED. -/
def State.quarantined (s : State) (h : Handle) : Bool := match s.entry h with
  | some e => e.state == .quarantined
  | none => false

/-- The record's expiry time has passed (R17, log entry 7). -/
def State.expired (s : State) (t : Txn) : Bool := match t.deadline with
  | some d => t.isHost && decide (d ≤ s.now)
  | none => false

/-- A return: the tests of R20, R24, R25 and R17, in that order, and else the placement (R9). A POLL record has no
cancel pending (R20). -/
def State.giveBack (s : State) (t : Txn) (place : Placement) : State :=
  if t.cancelPending && t.isHost then s.decideAside .cancelled t
  else if s.quarantined t.handle then (if t.isHost then s.decideAside .targetOut t else s)
  else if t.isOrphan then s
  else if s.expired t then s.decideAside .expired t
  else s.setBus t.bus ((s.bus t.bus).place t place)

/-- The retry gap of an entry (R9). -/
def State.retryGap (s : State) (h : Handle) : Nat := match s.entry h with
  | some e => e.retryGap
  | none => 0

/-- The refusal of a first address byte, reported after the stop (R47). -/
def State.reportRefusal (s : State) (t : Txn) : State :=
  let t' := { t with attemptsLeft := t.attemptsLeft - 1 }
  if 0 < t'.attemptsLeft then s.giveBack t' (.tailWaiting (s.now + s.retryGap t.handle)) else s.conclude t' .noTarget

/-- A lost arbitration reported for a record (R10, R57). -/
def State.reportLoss (s : State) (t : Txn) : State :=
  let t' := { t with lostArbitrations := t.lostArbitrations + 1 }
  if t'.lostArbitrations < Config.lossLimit then s.giveBack t' .headQueued else s.conclude t' .lostBus

/-! ### Probes and selection (R12, R97, R98, R101) -/

/-- The engine of bus `b` gives the probe of entry `h` up: it is due again when the entry waits on it (R101). -/
def State.giveUpProbe (s : State) (b : BusId) (h : Handle) : State :=
  match s.entry h with
  | some e => if e.probe = .issued ∧ e.bus = b then s.setEntry h (some { e with probe := .due }) else s
  | none => s

/-- Work whose start is not made, or that BUS_RESET or a stall takes from the engine as a probe (R44, R54). -/
def State.giveUpWork (s : State) (b : BusId) : Work → State
  | .record t => s.giveBack t .headQueued
  | .probe h => s.giveUpProbe b h

/-- The due probe of a bus: of the entries with a due probe, the lowest handle (R98). -/
def State.dueProbe (s : State) (b : BusId) : Option Handle :=
  allHandles.find? fun h => match s.entry h with
    | some e => e.bus == b && e.probe == .due
    | none => false

/-- The first QUEUED record of a sub-list, and the sub-list without it (R12). -/
def takeQueued : List Txn → Option (Txn × List Txn)
  | [] => none
  | t :: ts => if t.notBefore = none then some (t, ts) else (takeQueued ts).map fun r => (r.1, t :: r.2)

/-- Steps 2 to 4 of R12: the record chosen and the bus without it. -/
def Bus.chooseRecord (x : Bus) : Option (Txn × Bus) :=
  let urgent := (takeQueued x.urgent).map fun r => (r.1, { x with urgent := r.2 })
  let routine := (takeQueued x.routine).map fun r => (r.1, { x with routine := r.2 })
  if Config.urgentRunLimit ≤ x.urgentRun then routine.or urgent else urgent.or routine

/-- Selection on a bus (R12): taken only while its engine is IDLE and holds no work. -/
def State.select (s : State) (b : BusId) : State :=
  if (s.bus b).engine = .idle none then
    match s.dueProbe b with
    | some h =>
      (s.setEntry h ((s.entry h).map fun e => { e with probe := .issued })).setBus b
        { s.bus b with engine := .idle (some (.probe h)) }
    | none =>
      match (s.bus b).chooseRecord with
      | some (t, x) => s.setBus b { x with engine := .idle (some (.record { t with progress := Progress.zero })) }
      | none => s
  else s

/-! ### Engine and line transitions -/

/-- The engine enters a state in which the hub drives neither line: it sends no byte, and waits for no clock. -/
def Bus.rest (x : Bus) (e : Engine) : Bus :=
  { x with engine := e, clockOut := .released, dataOut := .released, sending := none, bitsPlaced := 0
           stretchTimer := 0 }

def State.rest (s : State) (b : BusId) (e : Engine) : State := s.setBus b ((s.bus b).rest e)

/-- A line falls: the free timer is at 0, the stuck timer counts afresh (R37, R38). -/
def Monitor.fallen (m : Monitor) : Monitor :=
  { m with bothHigh := false, freeTimer := 0, freeRaised := false, stuckTimer := 0 }

/-- Clock is sensed high, data at the level given (R37, R38): an edge of the clock line returns the stuck timer to 0, and
with data high the free timer counts from 0. Where both lines were high already there is no edge. -/
def Monitor.clockRisen (m : Monitor) (dataHigh : Bool) : Monitor :=
  if m.bothHigh then m
  else { m with bothHigh := dataHigh, freeTimer := 0, freeRaised := false, stuckTimer := 0 }

/-- A start, repeated start or irregular start (R36). -/
def Monitor.start (m : Monitor) : Monitor := { m.fallen with line := .held }

/-- A stop: both lines are high from now (R36, R37). -/
def Monitor.stop (m : Monitor) : Monitor :=
  { m with line := .free, bothHigh := true, freeTimer := 0, freeRaised := false, stuckTimer := 0 }

/-- Bus-free: the free timer stays at the free time and the line is FREE (R37). -/
def Monitor.busFree (m : Monitor) : Monitor :=
  { m with line := .free, bothHigh := true, freeTimer := m.freeTime, freeRaised := true, stuckTimer := 0 }

def State.mapMonitor (s : State) (b : BusId) (f : Monitor → Monitor) : State :=
  s.setBus b { s.bus b with monitor := f (s.bus b).monitor }

/-- Entry to CLEARING, with the stalled record it keeps: no pulse is made, both lines are released, and the engine waits
for clock to be sensed high (R65). -/
def State.enterClearing (s : State) (b : BusId) (stalled : Option Txn) : State :=
  let x := s.bus b
  s.setBus b { x.rest (.clearing stalled 0 .waiting) with
    clearings := satSucc 65535 x.clearings, monitor := { x.monitor with stuckTimer := 0 } }

/-- The engine enters IDLE, and selection is taken (R45). -/
def State.enterIdle (s : State) (b : BusId) : State := (s.rest b (.idle none)).select b

/-- The inbound record of a reception that ends (R141). -/
def Reception.record (r : Reception) (b : BusId) (ended : EndedBy) : Inbound :=
  { bus := b, kind := r.kind, broadcast := r.broadcast, truncated := r.truncated, endedBy := ended,
    count := r.count, data := r.data }

/-- A reception ends and its record enters the inbound queue (R137, R138, R139). -/
def State.endReception (s : State) (b : BusId) (r : Reception) (ended : EndedBy) : State :=
  { s with inbound := s.inbound ++ [r.record b ended] }

/-- The reservations: one for each open reception (R133). -/
def State.reservations (s : State) : Nat :=
  allBuses.countP fun b => match (s.bus b).engine with
    | .answering _ => true
    | .off => false
    | .idle _ => false
    | .occupied _ => false
    | .driving _ _ => false
    | .clearing _ _ _ => false
    | .faulted => false

/-- The loss of arbitration by bus `b`'s engine, carrying `w`: the counter, the report and the engine's next state
(R57, R58, R59). `hearing`: it goes on hearing an address byte, whose first bits are these. -/
def State.loseBus (s : State) (b : BusId) (w : Work) (hearing : Option (List Bool)) : State :=
  let s := s.rest b (.occupied hearing)
  let s := s.setBus b { s.bus b with arbitrationLosses := satSucc 65535 (s.bus b).arbitrationLosses }
  match w with
  | .record t => s.reportLoss t
  | .probe h => s.giveUpProbe b h

/-- The engine reports the result phase STOP was entered for (R51, R64). -/
def State.reportStop (s : State) (b : BusId) (r : StopResult) (w : Work) : State :=
  match w, r with
  | .record t, .decision .ok =>
    (s.setBus b { s.bus b with okCompletions := satSucc 65535 (s.bus b).okCompletions }).conclude t .ok
  | .record t, .decision o => s.conclude t o
  | .record t, .addressRefused => s.reportRefusal t
  | .record _, .probeDone => s
  | .probe _, _ => s

/-! ### The directory's results (chapter 5) and the polls' pause and resume (R122, R123) -/

/-- Every poll of the entry goes PAUSED and joins the changed-poll set (R122). -/
def State.pausePolls (s : State) (h : Handle) : State :=
  s.mapPolls fun p => match p.state with
    | .active _ => if p.handle = h then { p with state := .paused, changed := true } else p
    | .paused => p

/-- Every PAUSED poll of the entry goes ACTIVE with a full period and joins the changed-poll set (R123). -/
def State.resumePolls (s : State) (h : Handle) : State :=
  s.mapPolls fun p => match p.state with
    | .active _ => p
    | .paused => if p.handle = h then { p with state := .active p.period, changed := true } else p

/-- The pool's part of a quarantine: the entry's queued records leave in queue order (R24). -/
def State.claimQuarantine (s : State) (b : BusId) (h : Handle) : State :=
  let hosts := (s.bus b).queue.filter fun t => t.handle == h && t.isHost
  let s := s.setBus b ((s.bus b).dropQueued fun t => t.handle == h)
  hosts.foldl (fun s t => s.decideAside .targetOut t) s

/-- The entry enters QUARANTINED with its refusals counted (R96). -/
def State.quarantine (s : State) (h : Handle) (e : Entry) (refusals : Nat) : State :=
  let s := s.setEntry h (some { e with state := .quarantined, refusals := refusals,
                                       probe := .timing e.probeInterval, changed := true })
  (s.claimQuarantine e.bus h).pausePolls h

/-- The quarantine of the entry ends: PRESENT, no refusals, no probe, and its polls resume (R99, R102). -/
def State.release (s : State) (h : Handle) (e : Entry) : State :=
  (s.setEntry h (some { e with state := .present, refusals := 0, probe := .none, changed := true })).resumePolls h

/-- "Address acknowledged" for a record (R94); a QUARANTINED entry is reached by probes alone. -/
def State.addressAcknowledged (s : State) (h : Handle) : State :=
  match s.entry h with
  | none => s
  | some e => match e.state with
    | .quarantined => s
    | .present => s.setEntry h (some { e with refusals := 0 })
    | .new => s.setEntry h (some { e with state := .present, refusals := 0, changed := true })
    | .suspect => s.setEntry h (some { e with state := .present, refusals := 0, changed := true })

/-- "Address refused" for a record (R95). -/
def State.addressRefused (s : State) (h : Handle) : State :=
  match s.entry h with
  | none => s
  | some e =>
    let n := satSucc 255 e.refusals
    match e.state with
    | .quarantined => s
    | .new => if n < e.threshold then s.setEntry h (some { e with state := .suspect, refusals := n, changed := true })
              else s.quarantine h e n
    | .present => if n < e.threshold then s.setEntry h (some { e with state := .suspect, refusals := n, changed := true })
                  else s.quarantine h e n
    | .suspect => if n < e.threshold then s.setEntry h (some { e with refusals := n }) else s.quarantine h e n

/-- A probe's result from the engine of bus `b` (R99, R100), counted only for the probe the entry waits on (R101). -/
def State.probeResult (s : State) (b : BusId) (h : Handle) (ack : AckBit) : State :=
  match s.entry h with
  | none => s
  | some e =>
    if e.probe = .issued ∧ e.bus = b then
      match ack with
      | .acknowledged => s.release h e
      | .refused => s.setEntry h (some { e with refusals := satSucc 255 e.refusals, probe := .timing e.probeInterval })
    else s

/-! ### Reply slots, the cache and the transmitter (chapter 8) -/

/-- The replies owed to the host in sending order: the one being sent and the filled slots (R153). -/
def State.owed (s : State) : List Reply :=
  (match s.transmitter with
   | .reply r => [r]
   | .idle => []
   | .notice _ => []) ++ s.filled

/-- The FREE reply slots: eight, less one for each request of the intake and each reply owed (Table 8-5). -/
def State.freeSlots (s : State) : Nat := Config.replySlots - s.intake.length - s.owed.length

/-- The room field: the free places of the intake (R153). -/
def State.roomField (s : State) : Byte := byteOf (Config.intakePlaces - s.intake.length)

/-- An entry joins the reply cache, the oldest leaving when it is full (R154). -/
def cacheJoin (c : List CacheEntry) (e : CacheEntry) : List CacheEntry :=
  (if c.length < Config.cacheEntries then c else c.drop 1) ++ [e]

/-- An owner's answer: the code, the fields after code and room of an OK reply, and the mark. -/
structure Answer where
  code : ReplyCode
  fields : List Byte
  mark : ReplyMark
  deriving DecidableEq, Repr

def Answer.ok (fields : List Byte) : Answer := { code := .ok, fields := fields, mark := .plain }

def Answer.refuse (code : ReplyCode) : Answer := { code := code, fields := [], mark := .plain }

/-- The reply frame of a request: its kind plus 80h, its tag, code, room and fields (R163, R173, R174). -/
def replyFrame (s : State) (kind tag : Byte) (a : Answer) : Frame :=
  { kind := kind + 0x80#8, tag := tag,
    body := a.code.value :: s.roomField :: (if a.code = .ok then a.fields else []) }

/-- The handler places the reply in the request's slot and, for a tag other than 0, in the cache (R153, R154, R163). -/
def State.placeReply (s : State) (kind tag : Byte) (a : Answer) : State :=
  let f := replyFrame s kind tag a
  { s with
    filled := s.filled ++ [{ frame := f, mark := a.mark }]
    cache := if tag = 0x00#8 then s.cache else cacheJoin s.cache { tag := tag, kind := kind, frame := f } }

/-- The attention unit composes the notice into the attention slot, and it is sent (R171). -/
def State.composeNotice (s : State) : State :=
  { s with transmitter := .notice (noticeFrame s), announced := eligible s }

/-- The transmitter starts the filled slot that is first in the sending order, or is idle (R155, steps 2 and 3). -/
def State.startReply (s : State) : State :=
  match s.filled with
  | [] => { s with transmitter := .idle }
  | r :: rest => { s with transmitter := .reply r, filled := rest }

/-- The transmitter chooses the next frame at the end of a frame or at a reset (R155). -/
def State.chooseFrame (s : State) : State := if noticePending s then s.composeNotice else s.startReply

/-- RESTARTED is raised and not announced: the notice that a reset made pending, before any reply (R159). -/
def State.restartPending (s : State) : Bool := s.restarted && !s.announced.restarted

/-- An idle transmitter chooses when a notice becomes pending or a reply is placed. When both came in one step, either
is taken first: the free value decides (R155, log entry 9). -/
def State.kick (s : State) : State :=
  match s.transmitter with
  | .reply _ => s
  | .notice _ => s
  | .idle =>
    if noticePending s && !s.filled.isEmpty && !s.restartPending then
      let s' := { s with freeIndex := s.freeIndex + 1 }
      if Config.replyFirst s.freeIndex then s'.startReply else s'.composeNotice
    else s.chooseFrame

/-- The end of every step: a lowered flag leaves the announced set (R170), and an idle transmitter chooses (R155). -/
def State.settle (s : State) : State := { s with announced := s.announced.inter (raised s) }.kick

/-- A command takes effect unless the RESET# pin is held low (R167, log entry 16). -/
def act (s : State) (f : State → State) : Host.Outcome State Fault Refusal :=
  if s.resetLow then .next s else .next (f s).settle

/-! ### Taking a good frame and handling a request (R150, R151, R161 to R163) -/

/-- The room check (R151). -/
def State.roomCheck (s : State) (r : Request) : State :=
  if s.freeSlots = 0 then s
  else if s.intake.length < Config.intakePlaces then { s with intake := s.intake ++ [r] }
  else { s with filled := s.filled ++
    [{ frame := { kind := r.kind + 0x80#8, tag := r.tag, body := [ReplyCode.noRoom.value, 0x00#8] }, mark := .plain }] }

/-- The tag check (R150). -/
def State.takeFrame (s : State) (r : Request) : State :=
  if r.tag = 0x00#8 then s.roomCheck r
  else if s.intake.any fun q => q.tag == r.tag then
    { s with discards := { s.discards with duplicate := satSucc 65535 s.discards.duplicate } }
  else
    match s.cache.find? fun c => c.tag == r.tag with
    | some c =>
      if c.kind = r.kind then
        (if s.freeSlots = 0 then s else { s with filled := s.filled ++ [{ frame := c.frame, mark := .plain }] })
      else { s with cache := s.cache.filter fun c => c.tag != r.tag }.roomCheck r
    | none => s.roomCheck r

/-- The request as it stands for handling: already at the head of the intake, or else come now as a whole good frame, which
passes the receiver by and leaves the frame it may be assembling as it is (log entry 3). -/
def State.present (s : State) (r : Request) : State := if s.intake.head? = some r then s else s.takeFrame r

/-- The handler takes the request at the head of the intake and places its owner's answer (R161, R163). -/
def State.handle (s : State) (r : Request) (owner : State → State × Answer) : State :=
  if s.handler = .ready ∧ s.intake.head? = some r then
    let o := owner { s with intake := s.intake.tail }
    o.1.placeReply r.kind r.tag o.2
  else s

/-- A request command: ill formed when no frame can carry it, and else presented and handled. -/
def request (kind tag : Byte) (body : List Byte) (owner : State → State × Answer) (s : State) :
    Host.Outcome State Fault Refusal :=
  if body.length ≤ Config.maxBody then
    act s fun s =>
      let r : Request := { kind := kind, tag := tag, body := body }
      (s.present r).handle r owner
  else .fault .illFormed

/-! ### The bytes and bits the hub sends (R29, R30, R46, R53, R136) -/

/-- The entry the work is for. -/
def Work.handle : Work → Handle
  | .record t => t.handle
  | .probe h => h

/-- The direction of the work's address byte: that of the segment in hand, and write for a probe (R46, R53). -/
def Work.reads : Work → Bool
  | .record t => match t.segments[t.progress.segmentInHand]? with
    | some (.read _) => true
    | some (.write _) => false
    | none => false
  | .probe _ => false

/-- The `k`-th address the hub may send: of 08h to 77h (R30), its own address left out (R129). -/
def sendable (own : Option BusAddress) (k : Nat) : BusAddress := match own with
  | none => BitVec.ofNat 7 (8 + k % 112)
  | some a => BitVec.ofNat 7 (if a.toNat ≤ 8 + k % 111 then 9 + k % 111 else 8 + k % 111)

/-- The address of the work's entry, read as the address byte begins (R53, R90). THE MODEL'S CHOICE (log entry 26): a probe's
entry may be gone by then, or its handle name a target added since, on another bus even. A target there gives its address;
where there is none, or its address is this bus's own, which the hub never sends (R129), the address is a free value of those
the hub may send. -/
def State.targetAddress (s : State) (own : Option BusAddress) (w : Work) : BusAddress :=
  let absent := sendable own (Config.absentAddress w.handle.val s.time)
  match s.entry w.handle with
  | some e => if own = some e.address then absent else e.address
  | none => absent

/-- The address byte of the work on a bus (R30, R46, R53). -/
def State.addressSent (s : State) (x : Bus) (w : Work) : Byte := addressByte (s.targetAddress x.ownAddress w) w.reads

/-- What the bit placed last does to data: low for a 0, released for a 1, for the ninth pulse, and while none is placed (R29,
R136). -/
def Bus.bitDrive (x : Bus) : Drive :=
  match x.sending, x.bitsPlaced with
  | none, _ => .released
  | some _, 0 => .released
  | some v, k + 1 => if (bitsOf v)[k]? = some false then .low else .released

/-- Clock has fallen, and the next bit of the byte being sent is placed; after the eighth data is released for the ninth
pulse (R27, R29, R136). -/
def Bus.placeBit (x : Bus) : Bus :=
  match x.sending with
  | some _ =>
    let x := { x with bitsPlaced := min 9 (x.bitsPlaced + 1) }
    { x with dataOut := x.bitDrive }
  | none => x

/-- A start hold that still runs is over: the engine pulls clock low and enters ADDRESS, and reads the address for its byte
(R44, R46, R53, R90). -/
def Bus.holdOver (x : Bus) (byte : Work → Byte) : Bus :=
  match x.engine with
  | .driving .start w =>
    ({ x with engine := .driving .address w, clockOut := .low, sending := some (byte w), bitsPlaced := 0 } : Bus).placeBit
  | .driving _ _ => x
  | .off => x
  | .idle _ => x
  | .occupied _ => x
  | .answering _ => x
  | .clearing _ _ _ => x
  | .faulted => x

/-- What time alone brings an engine that drives to: a start hold is over (R44), in a clearing data is released for the stop
(R65), and else a low half is over and clock is released (R32). -/
def Bus.halfOver (x : Bus) (byte : Work → Byte) : Bus :=
  match x.engine with
  | .driving .start _ => x.holdOver byte
  | .clearing stalled n .starting => { x with engine := .clearing stalled n .stopping, clockOut := .released, dataOut := .released }
  | .driving _ _ => { x with clockOut := .released }
  | .clearing _ _ _ => { x with clockOut := .released }
  | .off => x
  | .idle _ => x
  | .occupied _ => x
  | .answering _ => x
  | .faulted => x

/-! ### The time base (section 0.7, log entries 5 and 6) -/

/-- The milliseconds of the time base that fall within the next `us` µs. -/
def State.msIn (s : State) (us : Nat) : Nat := (s.time + us) / 1000 - s.time / 1000

/-- A bus after `us` µs, `ms` of the millisecond time base among them: the free timer counts while both lines are
high (R37), the stuck timer in OCCUPIED and ANSWERING with a line low (R38), the wait for clock in DRIVING and CLEARING
(R63, R65). With any time that passes a start hold runs out (R44, R65), or a low half, and clock is released (R32; log entry
13). `byte`: the address byte of the work the engine holds. -/
def Bus.pass (x : Bus) (byte : Work → Byte) (us ms : Nat) : Bus :=
  let m := x.monitor
  let free := if m.bothHigh then min m.freeTime (m.freeTimer + us) else m.freeTimer
  let stuck := if m.bothHigh then m.stuckTimer else min m.stuckLimit (m.stuckTimer + ms)
  let stretch := min x.stretchLimit (x.stretchTimer + ms)
  match x.engine with
  | .driving _ _ =>
    { (if us = 0 then x else x.halfOver byte) with stretchTimer := stretch, monitor := { m with freeTimer := free } }
  | .clearing _ _ _ =>
    { (if us = 0 then x else x.halfOver byte) with stretchTimer := stretch, monitor := { m with freeTimer := free } }
  | .occupied _ => { x with monitor := { m with freeTimer := free, stuckTimer := stuck } }
  | .answering _ => { x with monitor := { m with freeTimer := free, stuckTimer := stuck } }
  | .off => { x with monitor := { m with freeTimer := free } }
  | .idle _ => { x with monitor := { m with freeTimer := free } }
  | .faulted => { x with monitor := { m with freeTimer := free } }

/-- A probe timer after `ms` milliseconds (R97). -/
def Entry.pass (ms : Nat) (e : Entry) : Entry := match e.probe with
  | .timing r => { e with probe := .timing (r - ms) }
  | .none => e
  | .due => e
  | .issued => e

/-- A period timer after `ms` milliseconds (R115). -/
def Poll.pass (ms : Nat) (p : Poll) : Poll := match p.state with
  | .active r => { p with state := .active (r - ms) }
  | .paused => p

/-- The gap timer after `ms` milliseconds (R148). -/
def Receiver.pass (ms : Nat) (r : Receiver) : Receiver :=
  if r.state = .hunt then r else { r with gapTimer := r.gapTimer + ms }

/-- The time base moves on by `us` µs, and with it every timer that runs. -/
def State.pass (s : State) (us : Nat) : State :=
  let ms := s.msIn us
  { s with
    time := s.time + us
    receiver := s.receiver.pass ms
    buses := mapTable (fun x => x.pass (s.addressSent x) us ms) s.buses
    directory := mapTable (Option.map (Entry.pass ms)) s.directory
    polls := mapTable (Option.map (Poll.pass ms)) s.polls }

/-- The time base moves on to the millisecond `t`, when it has not come to it yet. -/
def State.passTo (s : State) (t : Nat) : State := s.pass ((t - s.now) * 1000)

/-! ### The full reset (R166, R167) -/

/-- The hub makes the levels of this bus: its engine is DRIVING or CLEARING, or gives a byte's bits in READ_OUT, or it holds
a line low. -/
def Bus.holdsLines (x : Bus) : Bool :=
  x.clockOut == .low || x.dataOut == .low ||
  match x.engine with
  | .driving _ _ => true
  | .clearing _ _ _ => true
  | .answering r => r.kind == .read && !r.closed
  | .off => false
  | .idle _ => false
  | .occupied _ => false
  | .faulted => false

/-- Whether both lines of a bus are sensed high once a reset has released them (R42, log entry 11). The monitor's last
sense stands where it went on sensing and the hub held nothing; else it is whatever the other parties leave. -/
def State.levelAfterReset (s : State) (sensed : Bool) (b : BusId) : Bool :=
  if sensed && !(s.bus b).holdsLines then (s.bus b).monitor.bothHigh else Config.releasedHigh s.freeIndex b.val

/-- The four buses, each as `f` gives it. -/
def busTable (f : BusId → Bus) : Vector Bus 4 := ⟨⟨allBuses.map f⟩, by simp [allBuses]⟩

/-- Every block takes its values after reset, at the link rate given. The command queue, the time base and the RESET#
pin are kept (log entry 10), and a free value is taken for the lines (log entry 11). `sensed`: the monitors sensed the
lines up to the reset. -/
def State.fullReset (s : State) (rate : LinkRate) (sensed : Bool) : State :=
  { State.resetValues with
    pending := s.pending, freeIndex := s.freeIndex + 1, time := s.time, resetLow := s.resetLow, rate := rate,
    buses := busTable fun b => Bus.reset (s.levelAfterReset sensed b) }

end Sys2Proof.Machine
end

