-- ==== Sys2Proof/Machine/Attention.lean ====
section
/-! DEFINITION. The request handler's and attention unit's requests (chapter 9): HELLO, HUB_RESET, ATTENTION_MASK and
a request of unknown kind. -/

namespace Sys2Proof.Machine

/-- HELLO's answer: family A4h, revision 01h, the restart indication and the eight capacities; RESTARTED is then
lowered (R164). -/
def answerHello (body : List Byte) (s : State) : State × Answer :=
  match body with
  | [] =>
    ({ s with restarted := false },
     Answer.ok [0xA4#8, 0x01#8, switchValue s.restarted, 0x04#8, 0x40#8, 0x30#8, 0x10#8, 0x18#8, 0x10#8, 0x08#8, 0x08#8])
  | _ :: _ => (s, Answer.refuse .badFormat)

/-- HELLO (R164). -/
def execHello (tag : Byte) (body : List Byte) (s : State) : Host.Outcome State Fault Refusal :=
  request Kind.hello.code tag body (answerHello body) s

/-- HUB_RESET's answer: the handler enters HALTED and the reply is the reset point (R165). -/
def answerHubReset (body : List Byte) (s : State) : State × Answer :=
  match body with
  | [] => ({ s with handler := .halted }, { code := .ok, fields := [], mark := .resetPoint })
  | _ :: _ => (s, Answer.refuse .badFormat)

/-- HUB_RESET (R165). -/
def execHubReset (tag : Byte) (body : List Byte) (s : State) : Host.Outcome State Fault Refusal :=
  request Kind.hubReset.code tag body (answerHubReset body) s

/-- The announced set after a mask change: a flag other than RESTARTED whose member goes from set to clear leaves
(R169). -/
def announcedUnder (announced old new : FlagSet) : FlagSet :=
  { restarted := announced.restarted
    results := announced.results && !(old.results && !new.results)
    inbound := announced.inbound && !(old.inbound && !new.inbound)
    polls := announced.polls && !(old.polls && !new.polls)
    targets := announced.targets && !(old.targets && !new.targets)
    buses := announced.buses && !(old.buses && !new.buses) }

/-- ATTENTION_MASK's answer (R169). -/
def answerAttentionMask (body : List Byte) (s : State) : State × Answer :=
  match body with
  | [m] =>
    match flagsOf? m with
    | some f => ({ s with mask := f, announced := announcedUnder s.announced s.mask f }, Answer.ok [f.toByte])
    | none => (s, Answer.refuse .badValue)
  | [] => (s, Answer.refuse .badFormat)
  | _ :: _ :: _ => (s, Answer.refuse .badFormat)

/-- ATTENTION_MASK (R169). -/
def execAttentionMask (tag : Byte) (body : List Byte) (s : State) : Host.Outcome State Fault Refusal :=
  request Kind.attentionMask.code tag body (answerAttentionMask body) s

/-- The answer to a kind that Table 9-1 does not list (R162). -/
def answerUnknownKind (s : State) : State × Answer := (s, Answer.refuse .unknownKind)

/-- A request of unknown kind (R162); ill formed when its kind is listed or is no request kind. -/
def execUnknownKind (kind tag : Byte) (body : List Byte) (s : State) : Host.Outcome State Fault Refusal :=
  if kind.toNat < 128 && !kindListed kind then request kind tag body answerUnknownKind s else .fault .illFormed

end Sys2Proof.Machine
end

