-- ==== Sys2Proof/Machine/Buses.lean ====
section
/-! DEFINITION. The bus requests (sections 3.11 to 3.13): BUS_CONFIG, BUS_STATUS and BUS_RESET. -/

namespace Sys2Proof.Machine

/-- BUS_CONFIG may not act on the bus now (R70, check 2). -/
def Bus.busy (x : Bus) : Bool :=
  match x.engine with
  | .off => false
  | .idle none => !x.queue.isEmpty
  | .idle (some _) => true
  | .occupied _ => true
  | .driving _ _ => true
  | .answering _ => true
  | .clearing _ _ _ => true
  | .faulted => true

/-- The line monitor with a new free time and stuck limit; bus-free is raised at once when the count in progress has
reached the new free time (R41). THE MODEL'S CHOICE (log entry 33): where bus-free was raised already, the free timer is
cut to the new free time, which bounds it (R35). -/
def Monitor.configure (m : Monitor) (freeTime stuckLimit : Nat) : Monitor :=
  let m' := { m with freeTime := freeTime, stuckLimit := stuckLimit }
  if m.bothHigh ∧ m.freeRaised = false ∧ freeTime ≤ m.freeTimer then m'.busFree
  else { m' with freeTimer := min freeTime m.freeTimer }

/-- BUS_CONFIG's answer (R70, R71). THE MODEL'S CHOICE (log entry 34): a BUS_CONFIG that disables takes its free time and stuck
limit as any other does (R71); that disabling changes neither (R41) is read of the disabling itself. -/
def configureBus (v : BusSettings) (s : State) : State × Answer :=
  let x := s.bus v.bus
  if x.busy then (s, Answer.refuse .busy)
  else
    let m := x.monitor.configure v.freeTime v.stuckLimit
    let s' := s.setBus v.bus { x with speed := v.speed, stretchLimit := v.stretchLimit, monitor := m }
    let s'' :=
      if v.enable then
        match x.engine, m.line with
        | .off, .held => s'.rest v.bus (.occupied none)
        | _, _ => s'.enterIdle v.bus
      else s'.rest v.bus .off
    (s'', Answer.ok [])

def answerBusConfig (body : List Byte) (s : State) : State × Answer :=
  match body with
  | [bus, enable, speed, free, stretch, stuck] =>
    match busSettings bus enable speed free stretch stuck with
    | some v => configureBus v s
    | none => (s, Answer.refuse .badValue)
  | _ => (s, Answer.refuse .badFormat)

/-- BUS_CONFIG (R71). -/
def execBusConfig (tag : Byte) (body : List Byte) (s : State) : Host.Outcome State Fault Refusal :=
  request Kind.busConfig.code tag body (answerBusConfig body) s

/-- The fields of BUS_STATUS (R74, Table 10-5). -/
def busStatusFields (x : Bus) : List Byte :=
  [x.engine.value, x.engine.phaseField, byteOf x.urgent.length, byteOf x.routine.length]
    ++ bytes16 x.okCompletions ++ bytes16 x.arbitrationLosses ++ bytes16 x.stalls ++ bytes16 x.clearings
    ++ bytes16 x.faults ++ [byteOf x.pendingCleared, byteOf x.pendingFaulted, byteOf x.pendingRecovered]

/-- BUS_STATUS's answer: the pending event counts are then 0 (R74). -/
def answerBusStatus (body : List Byte) (s : State) : State × Answer :=
  match body with
  | [n] =>
    match busOf? n with
    | some b =>
      (s.setBus b { s.bus b with pendingCleared := 0, pendingFaulted := 0, pendingRecovered := 0 },
       Answer.ok (busStatusFields (s.bus b)))
    | none => (s, Answer.refuse .badValue)
  | _ => (s, Answer.refuse .badFormat)

/-- BUS_STATUS (R74). -/
def execBusStatus (tag : Byte) (body : List Byte) (s : State) : Host.Outcome State Fault Refusal :=
  request Kind.busStatus.code tag body (answerBusStatus body) s

/-- What the engine holds ends, by its state (Table 3-4): a record is decided ABANDONED, a probe whose acknowledge bit
was not taken is given up. The engine is already in CLEARING. -/
def State.abandon (s : State) (b : BusId) : Engine → State
  | .idle (some (.record t)) => s.conclude t .abandoned
  | .idle (some (.probe h)) => s.giveUpProbe b h
  | .driving _ (.record t) => s.conclude t .abandoned
  | .driving (.stop _) (.probe _) => s
  | .driving _ (.probe h) => s.giveUpProbe b h
  | .clearing (some t) _ _ => s.conclude t .abandoned
  | .clearing none _ _ => s
  | .idle none => s
  | .off => s
  | .occupied _ => s
  | .answering _ => s
  | .faulted => s

/-- BUS_RESET of an enabled bus (R69): its work ends, both lines are released, CLEARING begins, and the urgent run
count is 0. -/
def State.resetBus (s : State) (b : BusId) : State :=
  let e := (s.bus b).engine
  let s := s.enterClearing b none
  (s.setBus b { s.bus b with urgentRun := 0 }).abandon b e

/-- BUS_RESET's answer (R69). -/
def answerBusReset (body : List Byte) (s : State) : State × Answer :=
  match body with
  | [n] =>
    match busOf? n with
    | some b => if (s.bus b).engine = .off then (s, Answer.refuse .busOff) else (s.resetBus b, Answer.ok [])
    | none => (s, Answer.refuse .badValue)
  | _ => (s, Answer.refuse .badFormat)

/-- BUS_RESET (R69). -/
def execBusReset (tag : Byte) (body : List Byte) (s : State) : Host.Outcome State Fault Refusal :=
  request Kind.busReset.code tag body (answerBusReset body) s

end Sys2Proof.Machine
end

