-- ==== Sys2Proof/Machine/Directory.lean ====
section
/-! DEFINITION. The target directory (chapter 5): TARGET_ADD, TARGET_REMOVE, TARGET_RELEASE, TARGET_QUERY,
TARGET_CHANGES and a probe timer's expiry. -/

namespace Sys2Proof.Machine

/-- The UNUSED entry of lowest handle (R93). -/
def State.freeHandle (s : State) : Option Handle := allHandles.find? fun h => (s.entry h).isNone

/-- An entry in use names this bus and address. -/
def State.targetNamed (s : State) (b : BusId) (a : BusAddress) : Bool :=
  allHandles.any fun h => match s.entry h with
    | some e => e.bus == b && e.address == a
    | none => false

/-- TARGET_ADD of a new entry: checks 2 to 4 of R92, and the entry (R93). -/
def addTarget (e : Entry) (s : State) : State × Answer :=
  match s.freeHandle with
  | none => (s, Answer.refuse .tableFull)
  | some h =>
    if s.targetNamed e.bus e.address then (s, Answer.refuse .duplicate)
    else if (s.bus e.bus).ownAddress = some e.address then (s, Answer.refuse .conflict)
    else (s.setEntry h (some e), Answer.ok [byteOf h.val])

/-- TARGET_ADD's answer (R92, R93, R175). -/
def answerTargetAdd (body : List Byte) (s : State) : State × Answer :=
  match targetFields body with
  | none => (s, Answer.refuse .badFormat)
  | some f =>
    match targetEntry f with
    | none => (s, Answer.refuse .badValue)
    | some e => addTarget e s

/-- TARGET_ADD (R93). -/
def execTargetAdd (tag : Byte) (body : List Byte) (s : State) : Host.Outcome State Fault Refusal :=
  request Kind.targetAdd.code tag body (answerTargetAdd body) s

/-- TARGET_REMOVE's answer (R103); the handle leaves the change set with its entry. -/
def answerTargetRemove (body : List Byte) (s : State) : State × Answer :=
  match body with
  | [n] =>
    match handleOf? n with
    | none => (s, Answer.refuse .badValue)
    | some h =>
      if s.entry h = none then (s, Answer.refuse .unknownHandle)
      else if 0 < s.inFlight h ∨ 0 < s.pollRefs h then (s, Answer.refuse .inUse)
      else (s.setEntry h none, Answer.ok [])
  | _ => (s, Answer.refuse .badFormat)

/-- TARGET_REMOVE (R103). -/
def execTargetRemove (tag : Byte) (body : List Byte) (s : State) : Host.Outcome State Fault Refusal :=
  request Kind.targetRemove.code tag body (answerTargetRemove body) s

/-- The release of a handle: it ends a quarantine and changes nothing else (R102). -/
def State.releaseHandle (s : State) (h : Handle) : State :=
  match s.entry h with
  | some e => if e.state = .quarantined then s.release h e else s
  | none => s

/-- TARGET_RELEASE's answer: the entry's state after the request (R102). -/
def answerTargetRelease (body : List Byte) (s : State) : State × Answer :=
  match body with
  | [n] =>
    match handleOf? n with
    | none => (s, Answer.refuse .badValue)
    | some h =>
      (s.releaseHandle h, Answer.ok [entryStateField (((s.releaseHandle h).entry h).map Entry.state)])
  | _ => (s, Answer.refuse .badFormat)

/-- TARGET_RELEASE (R102). -/
def execTargetRelease (tag : Byte) (body : List Byte) (s : State) : Host.Outcome State Fault Refusal :=
  request Kind.targetRelease.code tag body (answerTargetRelease body) s

/-- The fields of TARGET_QUERY (R104, Table 10-5). -/
def targetQueryFields (s : State) (h : Handle) : List Byte :=
  [byteOf h.val, entryStateField ((s.entry h).map Entry.state)]
    ++ (match s.entry h with
        | none => []
        | some e =>
          [byteOf e.bus.val, byteOf e.address.toNat, byteOf e.attempts] ++ bytes16 e.retryGap ++ [byteOf e.threshold]
            ++ bytes16 e.probeInterval
            ++ [byteOf e.refusals, byteOf (s.inFlight h), byteOf (s.pollRefs h), e.probe.value]
            ++ (match e.probe with
                | .timing r => bytes16 r
                | .none => []
                | .due => []
                | .issued => []))

/-- TARGET_QUERY's answer (R104). -/
def answerTargetQuery (body : List Byte) (s : State) : State × Answer :=
  match body with
  | [n] =>
    match handleOf? n with
    | none => (s, Answer.refuse .badValue)
    | some h => (s, Answer.ok (targetQueryFields s h))
  | _ => (s, Answer.refuse .badFormat)

/-- TARGET_QUERY (R104). -/
def execTargetQuery (tag : Byte) (body : List Byte) (s : State) : Host.Outcome State Fault Refusal :=
  request Kind.targetQuery.code tag body (answerTargetQuery body) s

/-- The handles leave the directory change set (R105). -/
def State.dropTargetChanges (s : State) (hs : List Handle) : State :=
  hs.foldl (fun s h => s.setEntry h ((s.entry h).map fun e => { e with changed := false })) s

/-- TARGET_CHANGES's answer (R106). -/
def answerTargetChanges (body : List Byte) (s : State) : State × Answer :=
  match body with
  | [max] =>
    if 1 ≤ max.toNat ∧ max.toNat ≤ 64 then
      let all := changedTargets s
      let taken := all.take max.toNat
      (s.dropTargetChanges taken,
       Answer.ok ([byteOf taken.length, byteOf (all.length - taken.length)]
         ++ taken.flatMap fun h => [byteOf h.val, entryStateField ((s.entry h).map Entry.state)]))
    else (s, Answer.refuse .badValue)
  | _ => (s, Answer.refuse .badFormat)

/-- TARGET_CHANGES (R106). -/
def execTargetChanges (tag : Byte) (body : List Byte) (s : State) : Host.Outcome State Fault Refusal :=
  request Kind.targetChanges.code tag body (answerTargetChanges body) s

/-- A probe timer runs out: the probe is due, and selection is taken when the engine is IDLE (R97). -/
def State.probeTimerOut (s : State) (h : Handle) : State :=
  match s.entry h with
  | none => s
  | some e =>
    match e.probe with
    | .timing r =>
      let s := s.pass (r * 1000)
      (s.setEntry h (some { e with probe := .due })).select e.bus
    | .none => s
    | .due => s
    | .issued => s

/-- PROBE_TIMER_EXPIRY (R97). -/
def execProbeTimerExpiry (handle : Handle) (s : State) : Host.Outcome State Fault Refusal :=
  act s fun s => s.probeTimerOut handle

end Sys2Proof.Machine
end

