-- ==== Sys2Proof/Machine/Engines.lean ====
section
/-! DEFINITION. The bus engine as controller (sections 3.2 to 3.9): its start, the acknowledge bits and bytes of a
transfer, its repeated start and stop, a lost arbitration, a probe's answer, a stall and the end of a clearing. -/

namespace Sys2Proof.Machine

/-! ### A drive (R31, R32, R46 to R51) -/

/-- The write byte in hand (R43, R48). -/
def Work.writeByte? : Work → Option Byte
  | .record t => match t.segments[t.progress.segmentInHand]? with
    | some (.write bytes) => bytes[t.progress.byteInHand]?
    | some (.read _) => none
    | none => none
  | .probe _ => none

/-- The byte the engine sends in a phase of its drive: the address byte, or the write byte in hand (R46, R48, R53). -/
def State.byteSent (s : State) (b : BusId) (p : DrivePhase) (w : Work) : Option Byte := match p with
  | .start => none
  | .address => some (s.addressSent (s.bus b) w)
  | .send => w.writeByte?
  | .receive _ => none
  | .restart => none
  | .stop _ => none

/-- What an acknowledge bit given does to data: low for acknowledge, released for not-acknowledge (R49). -/
def ackDrive : AckBit → Drive
  | .acknowledged => .low
  | .refused => .released

/-- Clock at the beginning of a phase: high while the start is held (R44), and else pulled low (R32). -/
def DrivePhase.clockDrive : DrivePhase → Drive
  | .start => .released
  | .address => .low
  | .send => .low
  | .receive _ => .low
  | .restart => .low
  | .stop _ => .low

/-- Data at the beginning of a phase: low in a start (R44) and for a stop (R31, R51), as the acknowledge bit given (R49), and
else released, for a byte's bits to be placed, or taken (R46, R48, R49), or for a repeated start (R50). -/
def DrivePhase.dataDrive : DrivePhase → Drive
  | .start => .low
  | .address => .released
  | .send => .released
  | .receive none => .released
  | .receive (some ack) => ackDrive ack
  | .restart => .released
  | .stop _ => .low

/-- The engine of bus `b` goes on driving for work `w` in phase `p`: the outputs are as the phase begins, with the first bit of
the byte it sends there; clock has fallen at its beginning (R37), and a wait for clock begins afresh (R32, R63, log
entries 12 and 23). -/
def State.drive (s : State) (b : BusId) (p : DrivePhase) (w : Work) : State :=
  s.setBus b ({ s.bus b with
    engine := .driving p w, clockOut := p.clockDrive, dataOut := p.dataDrive, sending := s.byteSent b p w
    bitsPlaced := 0, stretchTimer := 0, monitor := (s.bus b).monitor.fallen } : Bus).placeBit

/-! ### The start (R44, R13) -/

/-- The urgent run count after a start made for this work (R13). -/
def urgentRunAfter (n : Nat) : Work → Nat
  | .record t => match t.cls with
    | .urgent => satSucc 255 n
    | .routine => 0
  | .probe _ => n

/-- The engine holding work in IDLE makes its start (R44); a line already HELD means that a foreign start came first
(R39). -/
def State.makeStart (s : State) (b : BusId) : State :=
  let x := s.bus b
  match x.engine with
  | .idle (some w) =>
    match x.monitor.line with
    | .free =>
      (s.setBus b { x with monitor := x.monitor.start, urgentRun := urgentRunAfter x.urgentRun w }).drive b .start w
    | .held => (s.rest b (.occupied (some []))).giveUpWork b w
  | .idle none => s
  | .off => s
  | .occupied _ => s
  | .driving _ _ => s
  | .answering _ => s
  | .clearing _ _ _ => s
  | .faulted => s

/-- START_MADE (R44). -/
def execStartMade (bus : BusId) (s : State) : Host.Outcome State Fault Refusal := act s fun s => s.makeStart bus

/-! ### A record's transfer (R46 to R50, R55) -/

/-- The record and phase of an engine that drives for a record. -/
def Engine.drivingRecord? : Engine → Option (DrivePhase × Txn)
  | .driving p (.record t) => some (p, t)
  | .driving _ (.probe _) => none
  | .off => none
  | .idle _ => none
  | .occupied _ => none
  | .answering _ => none
  | .clearing _ _ _ => none
  | .faulted => none

/-- The phase after an acknowledged address byte: STOP under cancel pending, else by the segment in hand (R46, R55). -/
def phaseOfSegment (t : Txn) : DrivePhase :=
  if t.cancelPending then .stop (.decision .cancelled)
  else
    match t.segments[t.progress.segmentInHand]? with
    | some (.write _) => .send
    | some (.read _) => .receive none
    | none => .stop (.decision .ok)

/-- The phase after the last byte of the segment in hand (R48, R49, R55). -/
def phaseAfterSegment (t : Txn) : DrivePhase :=
  if t.cancelPending then .stop (.decision .cancelled)
  else if t.progress.segmentInHand + 1 < t.segments.length then .restart
  else .stop (.decision .ok)

/-- START or ADDRESS: the start hold of a start made has run out by the next acknowledge bit (R44, log entry 13). -/
def DrivePhase.addressing : DrivePhase → Bool
  | .start => true
  | .address => true
  | .send => false
  | .receive _ => false
  | .restart => false
  | .stop _ => false

/-- A HOST record counts an attempt whose first address byte was answered (R77). -/
def Txn.countAttempt (t : Txn) : Txn := if t.isHost then { t with attemptsUsed := t.attemptsUsed + 1 } else t

/-- The acknowledge bit of an address byte the engine sent for a record (R46, R47, R55): for the first segment the
directory is told first, and the record's phase follows. -/
def State.addressAnswered (s : State) (b : BusId) (ack : AckBit) : State :=
  match (s.bus b).engine.drivingRecord? with
  | none => s
  | some (p, t) =>
    if p.addressing then
      if t.progress.segmentInHand = 0 then
        let t := t.countAttempt
        match ack with
        | .acknowledged => (s.addressAcknowledged t.handle).drive b (phaseOfSegment t) (.record t)
        | .refused => (s.addressRefused t.handle).drive b (.stop .addressRefused) (.record t)
      else
        match ack with
        | .acknowledged => s.drive b (phaseOfSegment t) (.record t)
        | .refused => s.drive b (.stop (.decision .dataRefused)) (.record t)
    else s

/-- ADDRESS_BYTE_ANSWERED (R46). -/
def execAddressByteAnswered (bus : BusId) (ack : AckBit) (s : State) : Host.Outcome State Fault Refusal :=
  act s fun s => s.addressAnswered bus ack

/-- Progress with one byte more of the segment in hand. -/
def Progress.byteDone (p : Progress) : Progress :=
  { p with byteInHand := p.byteInHand + 1, bytesDone := p.bytesDone + 1 }

/-- Progress with the segment in hand completed. -/
def Progress.segmentDone (p : Progress) : Progress := { p with segmentsDone := p.segmentsDone + 1 }

/-- The record and the phase after a write byte's acknowledge bit, the segment in hand having `length` bytes (R48). -/
def afterWriteByte (t : Txn) (length : Nat) : AckBit → Txn × DrivePhase
  | .refused => (t, .stop (.decision .dataRefused))
  | .acknowledged =>
    let t := { t with progress := t.progress.byteDone }
    if t.progress.byteInHand < length then (t, if t.cancelPending then .stop (.decision .cancelled) else .send)
    else
      let t := { t with progress := t.progress.segmentDone }
      (t, phaseAfterSegment t)

/-- The target's acknowledge bit for a write byte (R48). -/
def State.writeAnswered (s : State) (b : BusId) (ack : AckBit) : State :=
  match (s.bus b).engine.drivingRecord? with
  | none => s
  | some (p, t) =>
    if p = .send then
      match t.segments[t.progress.segmentInHand]? with
      | some (.write bytes) =>
        let r := afterWriteByte t bytes.length ack
        s.drive b r.2 (.record r.1)
      | some (.read _) => s
      | none => s
    else s

/-- WRITE_BYTE_ANSWERED (R48). -/
def execWriteByteAnswered (bus : BusId) (ack : AckBit) (s : State) : Host.Outcome State Fault Refusal :=
  act s fun s => s.writeAnswered bus ack

/-- The record with one read byte more (R49). -/
def Txn.gather (t : Txn) (value : Byte) : Txn :=
  { t with progress := { t.progress.byteDone with readBytes := t.progress.readBytes ++ [value] } }

/-- The hub refuses the read byte just gathered: it is the segment's last, or cancel pending is set (R49). -/
def Txn.refusesByte (t : Txn) (length : Nat) : Bool := decide (length ≤ t.progress.byteInHand) || t.cancelPending

/-- The acknowledge bit the hub gives for the read byte just gathered (R49). -/
def Txn.bitGiven (t : Txn) (length : Nat) : AckBit := if t.refusesByte length then .refused else .acknowledged

/-- The record and the phase after the acknowledge bit the hub gave for a read byte, the segment in hand having `length`
bytes: the next byte, the end of the segment, or the stop for cancel pending (R49). -/
def afterReadByte (t : Txn) (length : Nat) : AckBit → Txn × DrivePhase
  | .acknowledged => (t, .receive none)
  | .refused =>
    if t.progress.byteInHand < length then (t, .stop (.decision .cancelled))
    else
      let t := { t with progress := t.progress.segmentDone }
      (t, phaseAfterSegment t)

/-- The eighth bit of a read byte is taken (R49): the byte is gathered, and the hub gives its acknowledge bit; or that bit
is over, and the transfer goes on. -/
def State.readTaken (s : State) (b : BusId) (part : ReadPart) : State :=
  match (s.bus b).engine.drivingRecord? with
  | none => s
  | some (p, t) =>
    match t.segments[t.progress.segmentInHand]? with
    | some (.read length) =>
      match p, part with
      | .receive none, .complete value =>
        let t := t.gather value
        s.drive b (.receive (some (t.bitGiven length))) (.record t)
      | .receive (some ack), .answered =>
        let r := afterReadByte t length ack
        s.drive b r.2 (.record r.1)
      | _, _ => s
    | some (.write _) => s
    | none => s

/-- READ_BYTE_TAKEN (R49). -/
def execReadByteTaken (bus : BusId) (part : ReadPart) (s : State) : Host.Outcome State Fault Refusal :=
  act s fun s => s.readTaken bus part

/-- The engine makes its repeated start and enters ADDRESS for the next segment (R50). -/
def State.makeRepeatedStart (s : State) (b : BusId) : State :=
  match (s.bus b).engine.drivingRecord? with
  | none => s
  | some (p, t) =>
    if p = .restart then
      let t := { t with progress := { t.progress with segmentInHand := t.progress.segmentInHand + 1, byteInHand := 0 } }
      (s.mapMonitor b Monitor.start).drive b .address (.record t)
    else s

/-- REPEATED_START_MADE (R50). -/
def execRepeatedStartMade (bus : BusId) (s : State) : Host.Outcome State Fault Refusal :=
  act s fun s => s.makeRepeatedStart bus

/-! ### The stop (R51) -/

/-- Data is released for the stop (R51): the result is reported, and the engine enters IDLE when data rose and the line
is FREE, or OCCUPIED when another party holds data low. -/
def State.releaseStop (s : State) (b : BusId) (dataRose : Bool) : State :=
  match (s.bus b).engine with
  | .driving (.stop r) w =>
    if dataRose then
      ((((s.mapMonitor b Monitor.stop).rest b (.idle none)).reportStop b r w)).select b
    else ((s.mapMonitor b Monitor.fallen).rest b (.occupied none)).reportStop b r w
  | .driving .start _ => s
  | .driving .address _ => s
  | .driving .send _ => s
  | .driving (.receive _) _ => s
  | .driving .restart _ => s
  | .off => s
  | .idle _ => s
  | .occupied _ => s
  | .answering _ => s
  | .clearing _ _ _ => s
  | .faulted => s

/-- STOP_RELEASED (R51). -/
def execStopReleased (bus : BusId) (dataRose : Bool) (s : State) : Host.Outcome State Fault Refusal :=
  act s fun s => s.releaseStop bus dataRose

/-! ### Lost arbitration (R33, R57 to R59) -/

/-- A foreign condition told in this phase is a loss (R33): in every phase but where the hub has data low until its own step
releases it, so not in STOP and not while it acknowledges a read byte. THE MODEL'S CHOICES: in ADDRESS and SEND it is a loss
whatever bit was placed last, a 0 too, during which R33 and R57 have none, since the falls of clock that place the bits after
it, or release data for the ninth pulse, need not have been told (log entry 2); in START it comes just after the hold (log
entry 13). -/
def DrivePhase.exposed : DrivePhase → Bool
  | .start => true
  | .address => true
  | .send => true
  | .restart => true
  | .receive (some .acknowledged) => false
  | .receive (some .refused) => true
  | .receive none => true
  | .stop _ => false

/-- The bits of a byte sent up to the one at `place`, as sensed when data was low there; none when the hub sends that bit
as 0, which is no arbitration point (R33, R58). THE MODEL'S CHOICE (log entry 2): the place told is the bit's, whichever bit was
placed last. -/
def bitsLost (sent : Option Byte) (place : Fin 8) : Option (List Bool) :=
  match sent with
  | some v => if (bitsOf v)[place.val]? = some true then some ((bitsOf v).take place.val ++ [false]) else none
  | none => none

/-- A foreign start-seen is the loss (R33, R59): the engine hears the address byte that follows. -/
def State.loseToStart (s : State) (b : BusId) (w : Work) : State :=
  (s.mapMonitor b Monitor.start).loseBus b w (some [])

/-- A foreign stop-seen is the loss (R33, R59): the line is FREE and the engine enters IDLE. -/
def State.loseToStop (s : State) (b : BusId) (w : Work) : State :=
  ((s.mapMonitor b Monitor.stop).loseBus b w none).enterIdle b

/-- Data sensed low where the hub expects it high is the loss (R33): the line is not high (R37), and the engine goes on
hearing the byte of these first bits, or follows none. -/
def State.loseToLow (s : State) (b : BusId) (w : Work) (hearing : Option (List Bool)) : State :=
  (s.mapMonitor b Monitor.fallen).loseBus b w hearing

/-- A loss of arbitration (R57, R58, R59): in an address byte the engine goes on hearing the winner's, whose first bits
are those sent and the one lost; elsewhere it follows no byte. -/
def State.arbitrationLoss (s : State) (b : BusId) (cause : LossCause) : State :=
  match (s.bus b).engine with
  | .driving p w =>
    match cause with
    | .bitLow place =>
      match bitsLost ((s.bus b).holdOver (s.addressSent (s.bus b))).sending place with
      | some bits =>
        if p.addressing then s.loseToLow b w (some bits) else if p = .send then s.loseToLow b w none else s
      | none => s
    | .restartLow => if p = .restart then s.loseToLow b w none else s
    | .notAcknowledge => if p = .receive (some .refused) then s.loseToLow b w none else s
    | .startSeen => if p.exposed then s.loseToStart b w else s
    | .stopSeen => if p.exposed then s.loseToStop b w else s
  | .off => s
  | .idle _ => s
  | .occupied _ => s
  | .answering _ => s
  | .clearing _ _ _ => s
  | .faulted => s

/-- ARBITRATION_LOST (R57). -/
def execArbitrationLost (bus : BusId) (cause : LossCause) (s : State) : Host.Outcome State Fault Refusal :=
  act s fun s => s.arbitrationLoss bus cause

/-! ### Probes, stalls and clearing (R53, R63 to R67) -/

/-- The acknowledge bit of a probe (R53): the directory is told, and the engine enters STOP. -/
def State.probeAnswered (s : State) (b : BusId) (ack : AckBit) : State :=
  match (s.bus b).engine with
  | .driving p (.probe h) =>
    if p.addressing then
      (s.probeResult b h ack).drive b (.stop .probeDone) (.probe h)
    else s
  | .driving _ (.record _) => s
  | .off => s
  | .idle _ => s
  | .occupied _ => s
  | .answering _ => s
  | .clearing _ _ _ => s
  | .faulted => s

/-- PROBE_ANSWERED (R53). -/
def execProbeAnswered (bus : BusId) (ack : AckBit) (s : State) : Host.Outcome State Fault Refusal :=
  act s fun s => s.probeAnswered bus ack

/-- The engine enters CLEARING after a stall: in STOP its result is reported at once and it holds no work (R64); in
another phase a record is kept and a probe is given up (R63). -/
def State.stalled (s : State) (b : BusId) (p : DrivePhase) (w : Work) : State :=
  match p, w with
  | .stop r, w => (s.enterClearing b none).reportStop b r w
  | _, .record t => s.enterClearing b (some t)
  | _, .probe h => (s.enterClearing b none).giveUpProbe b h

/-- The rest of the stretch limit of bus `b` passes (R63, R65, log entry 23). -/
def State.stretchOut (s : State) (b : BusId) : State :=
  s.pass (((s.bus b).stretchLimit - (s.bus b).stretchTimer) * 1000)

/-- The stretch limit is reached, clock still low, while the engine drives (R63, R64). -/
def State.stallBus (s : State) (b : BusId) : State :=
  match (s.bus b).engine with
  | .driving p w =>
    let s := (s.stretchOut b).mapMonitor b Monitor.fallen
    let s := s.setBus b { s.bus b with stalls := satSucc 65535 (s.bus b).stalls }
    s.stalled b p w
  | .off => s
  | .idle _ => s
  | .occupied _ => s
  | .answering _ => s
  | .clearing _ _ _ => s
  | .faulted => s

/-- STALL (R63, R64). -/
def execStall (bus : BusId) (s : State) : Host.Outcome State Fault Refusal := act s fun s => s.stallBus bus

/-- A record kept through a clearing is reported at its end (R63). -/
def State.concludeStalled (s : State) (stalled : Option Txn) (o : TxnOutcome) : State :=
  match stalled with
  | some t => s.conclude t o
  | none => s

/-- The engine takes data as clock is sensed high at the entry to CLEARING or after a pulse (R65). Data high: it makes its
start, pulling data low. Data low: it makes one clock pulse more, pulling clock low, and after the ninth the clearing has
failed. -/
def Bus.clearingClockHigh (x : Bus) (stalled : Option Txn) (pulses : Nat) (dataHigh : Bool) : Bus :=
  if dataHigh then
    { x with engine := .clearing stalled pulses .starting, monitor := x.monitor.start, stretchTimer := 0
             clockOut := .released, dataOut := .low }
  else if pulses < 9 then
    { x with engine := .clearing stalled (pulses + 1) .waiting, monitor := x.monitor.fallen, stretchTimer := 0
             clockOut := .low }
  else
    { x with engine := .clearing stalled pulses .exhausted, monitor := x.monitor.fallen, stretchTimer := 0
             clockOut := .released }

/-- The clearing can end CLEARED: data was not found low after the ninth pulse (R65, log entry 14). -/
def ClearingStage.clears : ClearingStage → Bool
  | .waiting => true
  | .starting => true
  | .stopping => true
  | .exhausted => false

/-- The clearing ends CLEARED (R66): the own stop makes the line FREE, the event is counted, a kept record is STALLED,
and the engine enters IDLE. -/
def State.endClearing (s : State) (b : BusId) : State :=
  match (s.bus b).engine with
  | .clearing stalled _ stage =>
    if stage.clears then
      let s := (s.mapMonitor b Monitor.stop).rest b (.idle none)
      let s := s.setBus b { s.bus b with pendingCleared := satSucc 255 (s.bus b).pendingCleared }
      (s.concludeStalled stalled .stalled).select b
    else s
  | .off => s
  | .idle _ => s
  | .occupied _ => s
  | .driving _ _ => s
  | .answering _ => s
  | .faulted => s

/-- CLEARED (R66). -/
def execCleared (bus : BusId) (s : State) : Host.Outcome State Fault Refusal := act s fun s => s.endClearing bus

/-- The clearing fails (R65, R67): at once after the ninth pulse, and else once the stretch limit is reached. FAULTED, the
counters, and a kept record is BUS_FAULT. A line was low, so the line is HELD (log entry 15). -/
def State.failClearing (s : State) (b : BusId) : State :=
  match (s.bus b).engine with
  | .clearing stalled _ stage =>
    let s := if stage = .exhausted then s else s.stretchOut b
    let s := (s.mapMonitor b Monitor.start).rest b .faulted
    let s := s.setBus b { s.bus b with faults := satSucc 65535 (s.bus b).faults
                                       pendingFaulted := satSucc 255 (s.bus b).pendingFaulted }
    s.concludeStalled stalled .busFault
  | .off => s
  | .idle _ => s
  | .occupied _ => s
  | .driving _ _ => s
  | .answering _ => s
  | .faulted => s

/-- CLEARING_FAILED (R67). -/
def execClearingFailed (bus : BusId) (s : State) : Host.Outcome State Fault Refusal := act s fun s => s.failClearing bus

end Sys2Proof.Machine
end

