-- ==== Sys2Proof/Machine/Lines.lean ====
section
/-! DEFINITION. The line monitor's foreign happenings (chapter 2, Table 3-7): start-seen, stop-seen, bus-free and stuck. -/

namespace Sys2Proof.Machine

/-- A condition is told to a bus in CLEARING: the monitor takes it, and clock is high, so a pulse's low half is over (R28, R32;
log entry 13). -/
def State.conditionInClearing (s : State) (b : BusId) (f : Monitor → Monitor) : State :=
  s.setBus b { s.bus b with monitor := f (s.bus b).monitor, clockOut := .released }

/-- A foreign start, repeated start or irregular start is recognized (R28), and the engine acts on it by its state
(R44, R45, R60, R62, R138, Table 3-7). THE MODEL'S CHOICE (log entry 2): in ANSWERING it ends the reception whatever the hub last
did to data, since the fall of clock that released data need not have been told; in the start of a clearing, whose end
releases data in the stop that CLEARED tells, none can come. -/
def State.seeStart (s : State) (b : BusId) : State :=
  match (s.bus b).engine with
  | .off => s.mapMonitor b Monitor.start
  | .idle w =>
    let s := (s.mapMonitor b Monitor.start).rest b (.occupied (some []))
    match w with
    | some w => s.giveUpWork b w
    | none => s
  | .occupied _ => (s.mapMonitor b Monitor.start).rest b (.occupied (some []))
  | .driving p w => if p.exposed then s.loseToStart b w else s
  | .answering r => ((s.mapMonitor b Monitor.start).endReception b r .restart).rest b (.occupied (some []))
  | .clearing _ _ .starting => s
  | .clearing _ _ _ => s.conditionInClearing b Monitor.start
  | .faulted => s.mapMonitor b Monitor.start

/-- A bus as clock falls (R37, R38). In DRIVING the hub pulls clock low too, a start hold being over (R32, R44), and the next bit
of a byte it sends is placed. In ANSWERING data is released after an acknowledge it gave (R133, R135), and in READ_OUT the next
bit is placed (R136). -/
def Bus.clockFall (x : Bus) (byte : Work → Byte) : Bus :=
  let x := { x with monitor := x.monitor.fallen }
  match x.engine with
  | .driving .start _ => { x.holdOver byte with stretchTimer := 0 }
  | .driving _ _ => { x.placeBit with clockOut := .low, stretchTimer := 0 }
  | .answering _ => { x with dataOut := .released }.placeBit
  | .off => x
  | .idle _ => x
  | .occupied _ => x
  | .clearing _ _ _ => x
  | .faulted => x

/-- A bus as clock is sensed high, data at the level given: the monitor takes the edge (R37, R38). In DRIVING clock is not
pulled low any longer, and the wait for it ends (R27, R32, R63); in CLEARING the sequence goes on (R65). Data that the hub itself
holds low is sensed low (R27). -/
def Bus.clockRise (x : Bus) (dataHigh : Bool) : Bus :=
  let high := dataHigh && x.dataOut == .released
  let y := { x with monitor := x.monitor.clockRisen high }
  match x.engine with
  | .driving _ _ => { y with clockOut := .released, stretchTimer := 0 }
  | .clearing stalled pulses .waiting => x.clearingClockHigh stalled pulses high
  | .clearing _ _ .exhausted => y
  | .clearing _ _ .starting => y
  | .clearing _ _ .stopping => y
  | .off => y
  | .idle _ => y
  | .occupied _ => y
  | .answering _ => y
  | .faulted => y

/-- The engine waits in CLEARING for clock to be sensed high (R65). -/
def Engine.awaitsClock : Engine → Bool
  | .clearing _ _ .waiting => true
  | .clearing _ _ .exhausted => false
  | .clearing _ _ .starting => false
  | .clearing _ _ .stopping => false
  | .off => false
  | .idle _ => false
  | .occupied _ => false
  | .driving _ _ => false
  | .answering _ => false
  | .faulted => false

/-- What the monitor of bus `b` senses (R28, R35, log entry 24): data falling with clock high is a start or repeated
start, clock falling on a FREE line an irregular start, or with data falling together a start; clock falling or rising on
a HELD line is an edge. On a FREE line both are high, and only a clearing has use for that. -/
def State.sense (s : State) (b : BusId) (change : SensedChange) : State :=
  match (s.bus b).monitor.line, change with
  | .held, .dataFell => s.seeStart b
  | .held, .clockFell _ => s.setBus b ((s.bus b).clockFall (s.addressSent (s.bus b)))
  | .held, .clockHigh dataHigh => s.setBus b ((s.bus b).clockRise dataHigh)
  | .free, .dataFell => s.seeStart b
  | .free, .clockFell _ => s.seeStart b
  | .free, .clockHigh true => if (s.bus b).engine.awaitsClock then s.setBus b ((s.bus b).clockRise true) else s
  | .free, .clockHigh false => s

/-- START_SEEN (R28), and the changes of the lines that are no condition. -/
def execStartSeen (bus : BusId) (change : SensedChange) (s : State) : Host.Outcome State Fault Refusal :=
  act s fun s => s.sense bus change

/-- A foreign stop is recognized on a HELD line (R36), and the engine acts on it by its state (R61, R137, Table 3-7). THE MODEL'S
CHOICE (log entry 2): as for `State.seeStart`, a reception ends whatever the hub last did to data, and in the start of a
clearing none can come. -/
def State.seeStop (s : State) (b : BusId) : State :=
  match (s.bus b).engine with
  | .off => s.mapMonitor b Monitor.stop
  | .idle _ => s.mapMonitor b Monitor.stop
  | .occupied _ => (s.mapMonitor b Monitor.stop).enterIdle b
  | .driving p w => if p.exposed then s.loseToStop b w else s
  | .answering r => ((s.mapMonitor b Monitor.stop).endReception b r .stop).enterIdle b
  | .clearing _ _ .starting => s
  | .clearing _ _ _ => s.conditionInClearing b Monitor.stop
  | .faulted => s.mapMonitor b Monitor.stop

/-- STOP_SEEN (R36): while the line is FREE no stop can be sensed (R28). -/
def execStopSeen (bus : BusId) (s : State) : Host.Outcome State Fault Refusal :=
  act s fun s =>
    match (s.bus bus).monitor.line with
    | .free => s
    | .held => s.seeStop bus

/-- Bus-free is raised (R37), and the engine acts on it by its state (R45, R61, R68, R137, Table 3-7). -/
def State.raiseBusFree (s : State) (b : BusId) : State :=
  match (s.bus b).engine with
  | .off => s.mapMonitor b Monitor.busFree
  | .idle _ => s.mapMonitor b Monitor.busFree
  | .occupied _ => (s.mapMonitor b Monitor.busFree).enterIdle b
  | .driving _ _ => s
  | .answering r => ((s.mapMonitor b Monitor.busFree).endReception b r .stop).enterIdle b
  | .clearing _ _ _ => s.mapMonitor b Monitor.busFree
  | .faulted =>
    let s := s.mapMonitor b Monitor.busFree
    (s.setBus b { s.bus b with pendingRecovered := satSucc 255 (s.bus b).pendingRecovered }).enterIdle b

/-- The engine drives, so the lines do not both stay high for the free time. -/
def Engine.drives : Engine → Bool
  | .driving _ _ => true
  | .off => false
  | .idle _ => false
  | .occupied _ => false
  | .answering _ => false
  | .clearing _ _ _ => false
  | .faulted => false

/-- BUS_FREE (R37): once for each interval in which both lines stay high; the time base moves on to its moment
(log entries 5 and 24). THE MODEL'S CHOICE (log entry 2): as for `State.seeStart`, a reception ends whatever the hub last did to
data. -/
def execBusFree (bus : BusId) (s : State) : Host.Outcome State Fault Refusal :=
  act s fun s =>
    let m := (s.bus bus).monitor
    if m.freeRaised || (s.bus bus).engine.drives then s
    else (s.pass (m.freeTime - m.freeTimer)).raiseBusFree bus

/-- Stuck is raised in OCCUPIED or ANSWERING (R38): a reception ends ABORT, and the engine enters CLEARING (R61,
R139). -/
def State.raiseStuck (s : State) (b : BusId) : State :=
  match (s.bus b).engine with
  | .occupied _ => (s.mapMonitor b Monitor.fallen).enterClearing b none
  | .answering r => ((s.mapMonitor b Monitor.fallen).endReception b r .abort).enterClearing b none
  | .off => s
  | .idle _ => s
  | .driving _ _ => s
  | .clearing _ _ _ => s
  | .faulted => s

/-- The engine states in which stuck can be raised (R38). -/
def Engine.stuckReaches : Engine → Bool
  | .occupied _ => true
  | .answering _ => true
  | .off => false
  | .idle _ => false
  | .driving _ _ => false
  | .clearing _ _ _ => false
  | .faulted => false

/-- STUCK (R38): the stuck timer reaches the stuck limit, and the time base moves on to that moment
(log entries 5 and 24). -/
def execStuck (bus : BusId) (s : State) : Host.Outcome State Fault Refusal :=
  act s fun s =>
    let x := s.bus bus
    if x.engine.stuckReaches then
      (s.pass ((x.monitor.stuckLimit - x.monitor.stuckTimer) * 1000)).raiseStuck bus
    else s

end Sys2Proof.Machine
end

