-- ==== Sys2Proof/Machine/Link.lean ====
section
/-! DEFINITION. The host link (chapter 8): LINK_CONFIG, LINK_STATUS, a byte received, the gap timer's expiry and the end of
a frame sent. -/

namespace Sys2Proof.Machine

/-- The reply is no longer the switch point (R156). -/
def Reply.unswitched (r : Reply) : Reply := { r with mark := if r.mark = .switchPoint then .plain else r.mark }

/-- No reply owed is the switch point any longer (R156). -/
def State.dropSwitchPoint (s : State) : State :=
  { s with
    filled := s.filled.map Reply.unswitched
    transmitter := match s.transmitter with
      | .reply r => .reply r.unswitched
      | .idle => .idle
      | .notice f => .notice f }

/-- LINK_CONFIG's answer: the new rate is pending and this reply is the switch point (R156). -/
def answerLinkConfig (body : List Byte) (s : State) : State × Answer :=
  match body with
  | [a, b, c] =>
    match rateOf? (nat24 a b c) with
    | some r => ({ s.dropSwitchPoint with pendingRate := some r },
                 { code := .ok, fields := bytes24 r.bitsPerSecond, mark := .switchPoint })
    | none => (s, Answer.refuse .badValue)
  | _ => (s, Answer.refuse .badFormat)

/-- LINK_CONFIG (R156). -/
def execLinkConfig (tag : Byte) (body : List Byte) (s : State) : Host.Outcome State Fault Refusal :=
  request Kind.linkConfig.code tag body (answerLinkConfig body) s

/-- The fields of LINK_STATUS (R157): the slot of its own reply counts as not FREE. -/
def linkStatusFields (s : State) : List Byte :=
  bytes24 s.rate.bitsPerSecond
    ++ (match s.pendingRate with
        | some r => bytes24 r.bitsPerSecond
        | none => [0x00#8, 0x00#8, 0x00#8])
    ++ bytes16 s.discards.gap ++ bytes16 s.discards.length ++ bytes16 s.discards.check ++ bytes16 s.discards.kind
    ++ bytes16 s.discards.duplicate
    ++ [byteOf s.intake.length, byteOf (1 + s.intake.length + s.owed.length)]

/-- LINK_STATUS's answer (R157). -/
def answerLinkStatus (body : List Byte) (s : State) : State × Answer :=
  match body with
  | [] => (s, Answer.ok (linkStatusFields s))
  | _ :: _ => (s, Answer.refuse .badFormat)

/-- LINK_STATUS (R157). -/
def execLinkStatus (tag : Byte) (body : List Byte) (s : State) : Host.Outcome State Fault Refusal :=
  request Kind.linkStatus.code tag body (answerLinkStatus body) s

/-- What a byte brings about beside the receiver's next state (Table 8-3). -/
inductive ByteEffect where
  | nothing
  | discardKind
  | discardLength
  | discardCheck
  | good (r : Request)
  deriving DecidableEq, Repr

/-- The receiver's action on a byte (R147), the gap timer starting at 0 with each byte that leaves it outside HUNT
(R148). -/
def Receiver.take (r : Receiver) (b : Byte) : Receiver × ByteEffect :=
  match r.state with
  | .hunt =>
    if b = 0xA9#8 then ({ Receiver.reset with state := .sync }, .nothing) else (Receiver.reset, .nothing)
  | .sync =>
    if b = 0x5E#8 then ({ Receiver.reset with state := .header }, .nothing)
    else if b = 0xA9#8 then ({ Receiver.reset with state := .sync }, .nothing)
    else (Receiver.reset, .nothing)
  | .header =>
    match r.kind, r.tag with
    | none, _ =>
      if b.toNat < 128 then
        ({ r with kind := some b, running := checkByte r.running b, gapTimer := 0 }, .nothing)
      else (Receiver.reset, .discardKind)
    | some _, none => ({ r with tag := some b, running := checkByte r.running b, gapTimer := 0 }, .nothing)
    | some _, some _ =>
      if b.toNat ≤ Config.maxBody then
        ({ r with length := b.toNat, running := checkByte r.running b, gapTimer := 0
                  state := if b.toNat = 0 then .check else .body }, .nothing)
      else (Receiver.reset, .discardLength)
  | .body =>
    ({ r with body := r.body ++ [b], running := checkByte r.running b, gapTimer := 0
              state := if r.body.length + 1 < r.length then .body else .check }, .nothing)
  | .check =>
    match r.checkHigh with
    | none => ({ r with checkHigh := some b, gapTimer := 0 }, .nothing)
    | some h =>
      (Receiver.reset,
       if nat16 h b = r.running.toNat then .good { kind := r.kind.getD 0x00#8, tag := r.tag.getD 0x00#8, body := r.body }
       else .discardCheck)

/-- The counters and the tag check, by what the byte brought about (R147, R149, R150). -/
def State.byteEffect (s : State) : ByteEffect → State
  | .nothing => s
  | .discardKind => { s with discards := { s.discards with kind := satSucc 65535 s.discards.kind } }
  | .discardLength => { s with discards := { s.discards with length := satSucc 65535 s.discards.length } }
  | .discardCheck => { s with discards := { s.discards with check := satSucc 65535 s.discards.check } }
  | .good r => s.takeFrame r

/-- BYTE_RECEIVED (R147): a good frame passes the tag check and the room check in the same step. -/
def execByteReceived (value : Byte) (s : State) : Host.Outcome State Fault Refusal :=
  act s fun s =>
    let t := s.receiver.take value
    ({ s with receiver := t.1 }).byteEffect t.2

/-- GAP_TIMER_EXPIRY (R148): more than 20 ms have passed since the last byte of the frame in assembly. -/
def execGapTimerExpiry (s : State) : Host.Outcome State Fault Refusal :=
  act s fun s =>
    if s.receiver.state = .hunt then s
    else
      let s := s.pass ((Config.gapLimit + 1 - s.receiver.gapTimer) * 1000)
      { s with receiver := Receiver.reset, discards := { s.discards with gap := satSucc 65535 s.discards.gap } }

/-- The end of a frame (R155): the switch of the link rate at a switch point (R156), the reset at a reset point (R166),
and then the choice of the next frame. -/
def State.endFrame (s : State) : State :=
  match s.transmitter with
  | .idle => s
  | .notice _ => s.chooseFrame
  | .reply r =>
    match r.mark with
    | .plain => s.chooseFrame
    | .switchPoint => ({ s with rate := s.pendingRate.getD s.rate, pendingRate := none }).chooseFrame
    | .resetPoint => (s.fullReset s.rate true).chooseFrame

/-- FRAME_SENT (R155). -/
def execFrameSent (s : State) : Host.Outcome State Fault Refusal := act s State.endFrame

end Sys2Proof.Machine
end

