-- ==== Sys2Proof/Machine/Polls.lean ====
section
/-! DEFINITION. The poll scheduler (chapter 6): POLL_SET, POLL_OFF, POLL_READ and a period's expiry. -/

namespace Sys2Proof.Machine

/-- The poll POLL_SET makes for a target in this state (R114). -/
def newPoll (v : PollValues) (e : Entry) : Poll :=
  { state := if e.state = .quarantined then .paused else .active v.period
    handle := v.handle, writeBytes := v.writeBytes, readLength := v.readLength, mask := v.mask, period := v.period,
    policy := v.policy, cls := v.cls, lastValue := none, lastOutcome := none, lateCount := 0, failCount := 0,
    changed := false }

/-- POLL_SET of values in range: checks 2 to 4 of R113, and the poll (R114). -/
def setPollEntry (v : PollValues) (s : State) : State × Answer :=
  if (s.poll v.index).isSome then (s, Answer.refuse .inUse)
  else
    match s.entry v.handle with
    | none => (s, Answer.refuse .unknownHandle)
    | some e =>
      if s.freeRecords = 0 then (s, Answer.refuse .poolEmpty)
      else (s.setPoll v.index (some (newPoll v e)), Answer.ok [(newPoll v e).state.value])

/-- POLL_SET's answer (R113, R114, R175). -/
def answerPollSet (body : List Byte) (s : State) : State × Answer :=
  match pollFields body with
  | none => (s, Answer.refuse .badFormat)
  | some f =>
    match pollValues f with
    | none => (s, Answer.refuse .badValue)
    | some v => setPollEntry v s

/-- POLL_SET (R114). -/
def execPollSet (tag : Byte) (body : List Byte) (s : State) : Host.Outcome State Fault Refusal :=
  request Kind.pollSet.code tag body (answerPollSet body) s

/-- The record is marked orphaned (R25). -/
def Txn.orphan (t : Txn) : Txn := match t.origin with
  | .host _ => t
  | .poll i _ => { t with origin := .poll i true }

/-- The reserved record of poll `i` leaves this bus's queue, or is orphaned in its engine (R25). -/
def Bus.releasePoll (i : PollIndex) (x : Bus) : Bus :=
  { x.dropQueued fun t => t.ofPoll i with
    engine := x.engine.mapRecord fun t => if t.ofPoll i then t.orphan else t }

/-- The poll is turned off (R124): its entry is OFF, and with it out of the changed-poll set, and its record is
released. -/
def State.pollOff (s : State) (i : PollIndex) : State :=
  if (s.poll i).isSome then { s.setPoll i none with buses := mapTable (Bus.releasePoll i) s.buses } else s

/-- POLL_OFF's answer (R124). -/
def answerPollOff (body : List Byte) (s : State) : State × Answer :=
  match body with
  | [n] =>
    match pollOf? n with
    | none => (s, Answer.refuse .badValue)
    | some i => (s.pollOff i, Answer.ok [])
  | _ => (s, Answer.refuse .badFormat)

/-- POLL_OFF (R124). -/
def execPollOff (tag : Byte) (body : List Byte) (s : State) : Host.Outcome State Fault Refusal :=
  request Kind.pollOff.code tag body (answerPollOff body) s

/-- The indexes leave the changed-poll set (R125). -/
def State.dropPollChanges (s : State) (is : List PollIndex) : State :=
  is.foldl (fun s i => s.setPoll i ((s.poll i).map fun p => { p with changed := false })) s

/-- One poll's report entry (R126). -/
def pollReport (s : State) (i : PollIndex) : List Byte := match s.poll i with
  | some p => pollReportBytes i p
  | none => []

/-- POLL_READ's answer (R126). -/
def answerPollRead (body : List Byte) (s : State) : State × Answer :=
  match body with
  | [max] =>
    if 1 ≤ max.toNat ∧ max.toNat ≤ 16 then
      let all := changedPolls s
      let taken := all.take max.toNat
      (s.dropPollChanges taken,
       Answer.ok ([byteOf taken.length, byteOf (all.length - taken.length)] ++ taken.flatMap (pollReport s)))
    else (s, Answer.refuse .badValue)
  | _ => (s, Answer.refuse .badFormat)

/-- POLL_READ (R126). -/
def execPollRead (tag : Byte) (body : List Byte) (s : State) : Host.Outcome State Fault Refusal :=
  request Kind.pollRead.code tag body (answerPollRead body) s

/-- An instance's segments (R117). -/
def instanceSegments (p : Poll) : List Segment :=
  if p.writeBytes.isEmpty then [.read p.readLength] else [.write p.writeBytes, .read p.readLength]

/-- The reserved record filled afresh for an instance (R5, R117). -/
def instanceRecord (i : PollIndex) (p : Poll) (e : Entry) : Txn :=
  { origin := .poll i false, handle := p.handle, bus := e.bus, cls := p.cls, segments := instanceSegments p,
    deadline := none, attemptsLeft := e.attempts, attemptsUsed := 0, lostArbitrations := 0, notBefore := none,
    cancelPending := false, progress := Progress.zero }

/-- An engine state in which a period queues its instance (R116, condition 2). -/
def Engine.takesInstances : Engine → Bool
  | .idle _ => true
  | .occupied _ => true
  | .driving _ _ => true
  | .answering _ => true
  | .off => false
  | .clearing _ _ _ => false
  | .faulted => false

/-- The period of an ACTIVE poll runs out (R115, R116). -/
def State.periodOut (s : State) (i : PollIndex) : State :=
  match s.poll i with
  | none => s
  | some p =>
    match p.state with
    | .paused => s
    | .active r =>
      let s := s.pass (r * 1000)
      let p := { p with state := .active p.period }
      match s.entry p.handle with
      | none => s.setPoll i (some { p with lateCount := satSucc 255 p.lateCount })
      | some e =>
        if s.pollReserved i && (s.bus e.bus).engine.takesInstances && 0 < (s.bus e.bus).room then
          let s := s.setPoll i (some p)
          (s.setBus e.bus ((s.bus e.bus).joinTail (instanceRecord i p e))).select e.bus
        else s.setPoll i (some { p with lateCount := satSucc 255 p.lateCount })

/-- POLL_PERIOD_EXPIRY (R116). -/
def execPollPeriodExpiry (index : PollIndex) (s : State) : Host.Outcome State Fault Refusal :=
  act s fun s => s.periodOut index

end Sys2Proof.Machine
end

