-- ==== Sys2Proof/Machine/Resets.lean ====
section
/-! DEFINITION. Power-on and the RESET# pin (R167). -/

namespace Sys2Proof.Machine

/-- Every block takes its power-on values, and the first frame is the notice that announces RESTARTED (R159, R167); a
RESET# still held low keeps TXD high (log entry 17). -/
def State.powerUp (s : State) : State :=
  let s := s.fullReset .r115200 false
  if s.resetLow then s else s.chooseFrame

/-- POWER_ON (R167). -/
def execPowerOn (s : State) : Host.Outcome State Fault Refusal := .next s.powerUp

/-- RESET# falls (R159, R167): the frame being sent is cut off, every line is released, and no byte is placed. -/
def State.assertReset (s : State) : State :=
  { s with
    resetLow := true
    transmitter := .idle
    buses := mapTable (fun x => { x with clockOut := .released, dataOut := .released, sending := none, bitsPlaced := 0 }) s.buses }

/-- RESET_PIN_ASSERT (R167). -/
def execResetPinAssert (s : State) : Host.Outcome State Fault Refusal :=
  .next (if s.resetLow then s else s.assertReset)

/-- RESET_PIN_RELEASE (R167): RESET# rises and every block takes its power-on values. -/
def execResetPinRelease (s : State) : Host.Outcome State Fault Refusal :=
  .next (if s.resetLow then ({ s with resetLow := false } : State).powerUp else s)

end Sys2Proof.Machine
end

