-- ==== Sys2Proof/Machine/Responder.lean ====
section
/-! DEFINITION. Answering as a target (chapter 7): LISTEN_SET, PAGE_SET, INBOUND_READ, an address byte heard, and the
bytes of a reception. -/

namespace Sys2Proof.Machine

/-- A directory entry in use on the bus has this address (R130, check 2). -/
def State.entryAt (s : State) (b : BusId) (a : Option BusAddress) : Bool :=
  allHandles.any fun h => match s.entry h with
    | some e => e.bus == b && some e.address == a
    | none => false

/-- The engine is ANSWERING. -/
def Engine.isAnswering : Engine → Bool
  | .answering _ => true
  | .off => false
  | .idle _ => false
  | .occupied _ => false
  | .driving _ _ => false
  | .clearing _ _ _ => false
  | .faulted => false

/-- LISTEN_SET of values in range: checks 2 and 3, and the settings (R130). -/
def setListen (v : ListenSettings) (s : State) : State × Answer :=
  if s.entryAt v.bus v.ownAddress then (s, Answer.refuse .conflict)
  else if (s.bus v.bus).engine.isAnswering then (s, Answer.refuse .busy)
  else
    (s.setBus v.bus { s.bus v.bus with ownAddress := v.ownAddress, broadcastAccept := v.broadcastAccept }, Answer.ok [])

/-- LISTEN_SET's answer (R130). -/
def answerListenSet (body : List Byte) (s : State) : State × Answer :=
  match body with
  | [bus, own, broadcast] =>
    match listenSettings bus own broadcast with
    | some v => setListen v s
    | none => (s, Answer.refuse .badValue)
  | _ => (s, Answer.refuse .badFormat)

/-- LISTEN_SET (R130). -/
def execListenSet (tag : Byte) (body : List Byte) (s : State) : Host.Outcome State Fault Refusal :=
  request Kind.listenSet.code tag body (answerListenSet body) s

/-- PAGE_SET's answer (R131). -/
def answerPageSet (body : List Byte) (s : State) : State × Answer :=
  match body with
  | bus :: page =>
    if page.length ≤ 16 then
      match busOf? bus with
      | some b => (s.setBus b { s.bus b with page := page }, Answer.ok [])
      | none => (s, Answer.refuse .badValue)
    else (s, Answer.refuse .badFormat)
  | [] => (s, Answer.refuse .badFormat)

/-- PAGE_SET (R131). -/
def execPageSet (tag : Byte) (body : List Byte) (s : State) : Host.Outcome State Fault Refusal :=
  request Kind.pageSet.code tag body (answerPageSet body) s

/-- INBOUND_READ's answer (R142). -/
def answerInboundRead (body : List Byte) (s : State) : State × Answer :=
  match body with
  | [max] =>
    if 1 ≤ max.toNat ∧ max.toNat ≤ 8 then
      let r := takeFitting inboundSize max.toNat Config.recordBytes s.inbound
      ({ s with inbound := r.2 },
       Answer.ok ([byteOf r.1.length, byteOf r.2.length] ++ r.1.flatMap inboundBytes))
    else (s, Answer.refuse .badValue)
  | _ => (s, Answer.refuse .badFormat)

/-- INBOUND_READ (R142). -/
def execInboundRead (tag : Byte) (body : List Byte) (s : State) : Host.Outcome State Fault Refusal :=
  request Kind.inboundRead.code tag body (answerInboundRead body) s

/-- A reception at its opening (Table 7-3). -/
def openReception (kind : ReceptionKind) (broadcast : Bool) (page : List Byte) : Reception :=
  { kind := kind, broadcast := broadcast, truncated := false, count := 0, data := [],
    pageCopy := match kind with
      | .read => page
      | .write => []
    closed := false }

/-- The reception an address byte offers to open (Table 7-2). -/
def offered (x : Bus) (value : Byte) : Option Reception :=
  if value = 0x00#8 then (if x.broadcastAccept then some (openReception .write true x.page) else none)
  else if x.ownAddress = some (addressBits value) then
    some (openReception (if directionRead value then .read else .write) false x.page)
  else none

/-- The byte the hub gives next in READ_OUT: of the page copy, and FFh once it is exhausted; none in WRITE_IN and none
once the other controller has refused a byte (R136). -/
def Reception.byteGiven (r : Reception) : Option Byte :=
  match r.kind, r.closed with
  | .read, false => some (r.pageCopy.getD r.count 0xFF#8)
  | .read, true => none
  | .write, _ => none

/-- The engine of bus `b` answers in this reception: data as given, the byte the hub gives next in hand, none of its bits
placed. -/
def State.answer (s : State) (b : BusId) (r : Reception) (data : Drive) : State :=
  s.setBus b { s.bus b with engine := .answering r, dataOut := data, sending := r.byteGiven, bitsPlaced := 0 }

/-- The reception the address byte opens: the one it offers, while a place of the inbound queue is free (R133). -/
def State.admitted (s : State) (b : BusId) (value : Byte) : Option Reception :=
  if s.inbound.length + s.reservations < Config.inboundPlaces then offered (s.bus b) value else none

/-- A listening engine completes an address byte, of which it may know the first bits (R58, R60, R132): with room a place is
reserved, the hub acknowledges and the engine is ANSWERING (R133); otherwise it stays OCCUPIED until the next
condition. -/
def State.addressHeard (s : State) (b : BusId) (value : Byte) : State :=
  match (s.bus b).engine with
  | .occupied (some bits) =>
    if bits.isPrefixOf (bitsOf value) then
      match s.admitted b value with
      | some r => (s.mapMonitor b Monitor.fallen).answer b r .low
      | none => (s.mapMonitor b Monitor.fallen).rest b (.occupied none)
    else s
  | .occupied none => s
  | .off => s
  | .idle _ => s
  | .driving _ _ => s
  | .answering _ => s
  | .clearing _ _ _ => s
  | .faulted => s

/-- ADDRESS_BYTE_HEARD (R60). -/
def execAddressByteHeard (bus : BusId) (value : Byte) (s : State) : Host.Outcome State Fault Refusal :=
  act s fun s => s.addressHeard bus value

/-- A reception of kind WRITE with one byte more (R135). -/
def Reception.takeByte (r : Reception) (value : Byte) : Reception :=
  if r.count < Config.receptionBytes then { r with data := r.data ++ [value], count := r.count + 1 }
  else { r with truncated := true }

/-- A byte written by the other controller is complete (R135): below 32 it is stored and acknowledged, and else
refused. -/
def State.writeIn (s : State) (b : BusId) (value : Byte) : State :=
  match (s.bus b).engine with
  | .answering r =>
    match r.kind with
    | .write =>
      (s.mapMonitor b Monitor.fallen).answer b (r.takeByte value)
        (if r.count < Config.receptionBytes then .low else .released)
    | .read => s
  | .off => s
  | .idle _ => s
  | .occupied _ => s
  | .driving _ _ => s
  | .clearing _ _ _ => s
  | .faulted => s

/-- WRITE_IN_BYTE (R135). -/
def execWriteInByte (bus : BusId) (value : Byte) (s : State) : Host.Outcome State Fault Refusal :=
  act s fun s => s.writeIn bus value

/-- A reception of kind READ with one byte more taken by the other controller (R136). -/
def Reception.giveByte (r : Reception) (ack : AckBit) : Reception :=
  let r := if r.count < Config.receptionBytes then { r with count := r.count + 1 } else { r with truncated := true }
  match ack with
  | .acknowledged => r
  | .refused => { r with closed := true }

/-- The other controller's acknowledge bit for a byte the hub gave, and the fall of clock that ends it (R136, log entry 12):
the hub places the first bit of its next byte, and after a refusal gives no more. -/
def State.readOut (s : State) (b : BusId) (ack : AckBit) : State :=
  match (s.bus b).engine with
  | .answering r =>
    match r.kind, r.closed with
    | .read, false =>
      let s := (s.mapMonitor b Monitor.fallen).answer b (r.giveByte ack) .released
      s.setBus b (s.bus b).placeBit
    | .read, true => s
    | .write, _ => s
  | .off => s
  | .idle _ => s
  | .occupied _ => s
  | .driving _ _ => s
  | .clearing _ _ _ => s
  | .faulted => s

/-- READ_OUT_BYTE (R136). -/
def execReadOutByte (bus : BusId) (ack : AckBit) (s : State) : Host.Outcome State Fault Refusal :=
  act s fun s => s.readOut bus ack

end Sys2Proof.Machine
end

