-- ==== Sys2Proof/Machine/Results.lean ====
section
/-! DEFINITION. The result store's request (chapter 4): FETCH. -/

namespace Sys2Proof.Machine

/-- What a FETCH with this max takes from the store, and what stays (R83). -/
def fetchSplit (s : State) (max : Nat) : List Completion × List Completion :=
  takeFitting completionSize max Config.recordBytes s.store

/-- The store and the wait list after a FETCH: one record of the wait list moves in for each record taken (R84). -/
def State.refill (s : State) (taken stay : List Completion) : State :=
  { s with
    store := stay ++ completionsOf (s.waitList.take taken.length)
    waitList := s.waitList.drop taken.length }

/-- FETCH's answer (R83, R84, R85). -/
def answerFetch (body : List Byte) (s : State) : State × Answer :=
  match body with
  | [max] =>
    if 1 ≤ max.toNat ∧ max.toNat ≤ 8 then
      let r := fetchSplit s max.toNat
      let s' := s.refill r.1 r.2
      (s', Answer.ok ([byteOf r.1.length, byteOf (s'.store.length + s'.waitList.length)] ++ r.1.flatMap completionBytes))
    else (s, Answer.refuse .badValue)
  | _ => (s, Answer.refuse .badFormat)

/-- FETCH (R83). -/
def execFetch (tag : Byte) (body : List Byte) (s : State) : Host.Outcome State Fault Refusal :=
  request Kind.fetch.code tag body (answerFetch body) s

end Sys2Proof.Machine
end

