-- ==== Sys2Proof/Machine/Transactions.lean ====
section
/-! DEFINITION. The pool and the bus queues (chapter 1): SUBMIT, CANCEL, QUERY, FLUSH, a deadline's expiry and a retry gap's
end. -/

namespace Sys2Proof.Machine

/-- The engine of the bus is OFF or FAULTED (R14, check 4). -/
def Engine.refusesWork : Engine → Bool
  | .off => true
  | .faulted => true
  | .idle _ => false
  | .occupied _ => false
  | .driving _ _ => false
  | .answering _ => false
  | .clearing _ _ _ => false

/-- The record SUBMIT fills (R15). -/
def submittedRecord (s : State) (v : SubmitValues) (e : Entry) (ticket : Nat) : Txn :=
  { origin := .host ticket, handle := v.handle, bus := e.bus, cls := v.cls, segments := v.segments,
    deadline := v.deadline.map fun d => s.now + d, attemptsLeft := v.attempts.getD e.attempts, attemptsUsed := 0,
    lostArbitrations := 0, notBefore := none, cancelPending := false, progress := Progress.zero }

/-- A SUBMIT whose values are in range: checks 2 to 6 of R14, and acceptance (R15). -/
def acceptSubmit (v : SubmitValues) (s : State) : State × Answer :=
  match s.entry v.handle with
  | none => (s, Answer.refuse .unknownHandle)
  | some e =>
    if e.state = .quarantined then (s, Answer.refuse .quarantined)
    else if (s.bus e.bus).engine.refusesWork then (s, Answer.refuse .busOff)
    else if (s.bus e.bus).room = 0 then (s, Answer.refuse .queueFull)
    else if s.freeRecords = 0 then (s, Answer.refuse .poolEmpty)
    else
      let ticket := s.issueTicket
      let s' := { s with nextTicket := ticketAfter ticket }
      ((s'.setBus e.bus ((s'.bus e.bus).joinTail (submittedRecord s v e ticket))).select e.bus,
       Answer.ok (bytes16 ticket))

/-- SUBMIT's answer (R14, R15, R175). -/
def answerSubmit (body : List Byte) (s : State) : State × Answer :=
  match submitFields body with
  | none => (s, Answer.refuse .badFormat)
  | some f =>
    match submitValues f with
    | none => (s, Answer.refuse .badValue)
    | some v => acceptSubmit v s

/-- SUBMIT (R15). -/
def execSubmit (tag : Byte) (body : List Byte) (s : State) : Host.Outcome State Fault Refusal :=
  request Kind.submit.code tag body (answerSubmit body) s

/-- Where a ticket is held (Table 1-4, R23). -/
inductive TicketPlace where
  | queued (bus : BusId) (t : Txn)
  | active (bus : BusId)
  | decided
  | stored
  | nowhere
  deriving DecidableEq, Repr

/-- The queued HOST record of a ticket, with its bus. -/
def State.queuedTicket (s : State) (k : Nat) : Option (BusId × Txn) :=
  allBuses.findSome? fun b => ((s.bus b).queue.find? fun t => t.hasTicket k).map fun t => (b, t)

/-- The bus whose engine holds the ticket's record. -/
def State.activeTicket (s : State) (k : Nat) : Option BusId :=
  allBuses.find? fun b => (s.bus b).engine.record?.any fun t => t.hasTicket k

/-- The holder of a ticket. -/
def State.findTicket (s : State) (k : Nat) : TicketPlace :=
  match s.queuedTicket k with
  | some (b, t) => .queued b t
  | none =>
    match s.activeTicket k with
    | some b => .active b
    | none =>
      if s.waitList.any fun d => d.record.hasTicket k then .decided
      else if s.store.any fun c => c.ticket == k then .stored else .nowhere

/-- CANCEL of a ticket of 1 to 65535 (R19). -/
def cancelTicket (k : Nat) (s : State) : State × Answer :=
  match s.findTicket k with
  | .queued b t =>
    ((s.setBus b ((s.bus b).dropQueued fun u => u.hasTicket k)).decideAside .cancelled t,
     Answer.ok [TxnStanding.queued.value])
  | .active b =>
    (s.setBus b { s.bus b with engine := (s.bus b).engine.mapRecord fun t => { t with cancelPending := true } },
     Answer.ok [TxnStanding.active.value])
  | .decided => (s, Answer.refuse .tooLate)
  | .stored => (s, Answer.refuse .tooLate)
  | .nowhere => (s, Answer.refuse .unknownTicket)

/-- CANCEL's answer (R6, R19). -/
def answerCancel (body : List Byte) (s : State) : State × Answer :=
  match body with
  | [h, l] => if nat16 h l = 0 then (s, Answer.refuse .badValue) else cancelTicket (nat16 h l) s
  | _ => (s, Answer.refuse .badFormat)

/-- CANCEL (R19). -/
def execCancel (tag : Byte) (body : List Byte) (s : State) : Host.Outcome State Fault Refusal :=
  request Kind.cancel.code tag body (answerCancel body) s

/-- The place, from 1, of the ticket's record in its class sub-list (R23). -/
def Bus.position (x : Bus) (t : Txn) (k : Nat) : Nat := 1 + (x.subList t.cls).findIdx fun u => u.hasTicket k

/-- The fields of a QUERY reply (R23); none is UNKNOWN_TICKET. -/
def queryFields (s : State) (k : Nat) : Option (List Byte) :=
  match s.findTicket k with
  | .queued b t =>
    some [(if t.notBefore.isSome then TxnStanding.waiting else TxnStanding.queued).value, byteOf ((s.bus b).position t k)]
  | .active _ => some [TxnStanding.active.value, 0x00#8]
  | .decided => some [TxnStanding.decided.value, 0x00#8]
  | .stored => some [TxnStanding.stored.value, 0x00#8]
  | .nowhere => none

/-- QUERY's answer (R6, R23). -/
def answerQuery (body : List Byte) (s : State) : State × Answer :=
  match body with
  | [h, l] =>
    if nat16 h l = 0 then (s, Answer.refuse .badValue)
    else
      match queryFields s (nat16 h l) with
      | some fields => (s, Answer.ok fields)
      | none => (s, Answer.refuse .unknownTicket)
  | _ => (s, Answer.refuse .badFormat)

/-- QUERY (R23). -/
def execQuery (tag : Byte) (body : List Byte) (s : State) : Host.Outcome State Fault Refusal :=
  request Kind.query.code tag body (answerQuery body) s

/-- Every queued HOST record of the bus is decided CANCELLED, in queue order (R22). -/
def State.flushBus (s : State) (b : BusId) : State :=
  ((s.bus b).queue.filter Txn.isHost).foldl (fun s t => s.decideAside .cancelled t)
    (s.setBus b ((s.bus b).dropQueued Txn.isHost))

/-- FLUSH's answer (R22). -/
def answerFlush (body : List Byte) (s : State) : State × Answer :=
  match body with
  | [n] =>
    match busOf? n with
    | some b => (s.flushBus b, Answer.ok [byteOf ((s.bus b).queue.countP Txn.isHost)])
    | none => (s, Answer.refuse .badValue)
  | _ => (s, Answer.refuse .badFormat)

/-- FLUSH (R22). -/
def execFlush (tag : Byte) (body : List Byte) (s : State) : Host.Outcome State Fault Refusal :=
  request Kind.flush.code tag body (answerFlush body) s

/-- The expiry of a HOST record's deadline (R16): a queued record is decided EXPIRED. A record that is ACTIVE is not
touched, but the time has come. -/
def State.expireTicket (s : State) (k : Nat) : State :=
  match s.findTicket k with
  | .queued b t =>
    match t.deadline with
    | none => s
    | some d =>
      let s := s.passTo d
      (s.setBus b ((s.bus b).dropQueued fun u => u.hasTicket k)).decideAside .expired t
  | .active b =>
    match (s.bus b).engine.record?.bind Txn.deadline with
    | none => s
    | some d => s.passTo d
  | .decided => s
  | .stored => s
  | .nowhere => s

/-- DEADLINE_EXPIRY (R16). -/
def execDeadlineExpiry (ticket : Nat) (s : State) : Host.Outcome State Fault Refusal :=
  act s fun s => s.expireTicket ticket

/-- The end of a WAITING record's retry gap: it is QUEUED in the same place, and selection is taken when the engine is
IDLE (R11). -/
def State.endGap (s : State) (n : RecordName) : State :=
  match allBuses.findSome? fun b => ((s.bus b).queue.find? fun t => t.named n).map fun t => (b, t) with
  | none => s
  | some (b, t) =>
    match t.notBefore with
    | none => s
    | some due =>
      let s := s.passTo due
      (s.setBus b ((s.bus b).mapQueued (fun t => t.named n) fun t => { t with notBefore := none })).select b

/-- RETRY_GAP_END (R11). -/
def execRetryGapEnd (name : RecordName) (s : State) : Host.Outcome State Fault Refusal :=
  act s fun s => s.endGap name

end Sys2Proof.Machine
end

