-- ==== Sys2Proof/Machine/Dispatch.lean ====
section
/-! DEFINITION. One arm per command, each a call of its meaning. -/

namespace Sys2Proof.Machine

def exec (i : Instr) (s : State) : Host.Outcome State Fault Refusal :=
  match i with
  | .hello tag body => Sys2Proof.Machine.execHello tag body s
  | .hubReset tag body => Sys2Proof.Machine.execHubReset tag body s
  | .attentionMask tag body => Sys2Proof.Machine.execAttentionMask tag body s
  | .linkConfig tag body => Sys2Proof.Machine.execLinkConfig tag body s
  | .linkStatus tag body => Sys2Proof.Machine.execLinkStatus tag body s
  | .submit tag body => Sys2Proof.Machine.execSubmit tag body s
  | .cancel tag body => Sys2Proof.Machine.execCancel tag body s
  | .query tag body => Sys2Proof.Machine.execQuery tag body s
  | .flush tag body => Sys2Proof.Machine.execFlush tag body s
  | .fetch tag body => Sys2Proof.Machine.execFetch tag body s
  | .busConfig tag body => Sys2Proof.Machine.execBusConfig tag body s
  | .busStatus tag body => Sys2Proof.Machine.execBusStatus tag body s
  | .busReset tag body => Sys2Proof.Machine.execBusReset tag body s
  | .targetAdd tag body => Sys2Proof.Machine.execTargetAdd tag body s
  | .targetRemove tag body => Sys2Proof.Machine.execTargetRemove tag body s
  | .targetRelease tag body => Sys2Proof.Machine.execTargetRelease tag body s
  | .targetQuery tag body => Sys2Proof.Machine.execTargetQuery tag body s
  | .targetChanges tag body => Sys2Proof.Machine.execTargetChanges tag body s
  | .pollSet tag body => Sys2Proof.Machine.execPollSet tag body s
  | .pollOff tag body => Sys2Proof.Machine.execPollOff tag body s
  | .pollRead tag body => Sys2Proof.Machine.execPollRead tag body s
  | .listenSet tag body => Sys2Proof.Machine.execListenSet tag body s
  | .pageSet tag body => Sys2Proof.Machine.execPageSet tag body s
  | .inboundRead tag body => Sys2Proof.Machine.execInboundRead tag body s
  | .unknownKind kind tag body => Sys2Proof.Machine.execUnknownKind kind tag body s
  | .byteReceived value => Sys2Proof.Machine.execByteReceived value s
  | .gapTimerExpiry => Sys2Proof.Machine.execGapTimerExpiry s
  | .frameSent => Sys2Proof.Machine.execFrameSent s
  | .powerOn => Sys2Proof.Machine.execPowerOn s
  | .resetPinAssert => Sys2Proof.Machine.execResetPinAssert s
  | .resetPinRelease => Sys2Proof.Machine.execResetPinRelease s
  | .deadlineExpiry ticket => Sys2Proof.Machine.execDeadlineExpiry ticket s
  | .retryGapEnd name => Sys2Proof.Machine.execRetryGapEnd name s
  | .pollPeriodExpiry index => Sys2Proof.Machine.execPollPeriodExpiry index s
  | .probeTimerExpiry handle => Sys2Proof.Machine.execProbeTimerExpiry handle s
  | .startSeen bus change => Sys2Proof.Machine.execStartSeen bus change s
  | .stopSeen bus => Sys2Proof.Machine.execStopSeen bus s
  | .busFree bus => Sys2Proof.Machine.execBusFree bus s
  | .stuck bus => Sys2Proof.Machine.execStuck bus s
  | .startMade bus => Sys2Proof.Machine.execStartMade bus s
  | .addressByteAnswered bus ack => Sys2Proof.Machine.execAddressByteAnswered bus ack s
  | .writeByteAnswered bus ack => Sys2Proof.Machine.execWriteByteAnswered bus ack s
  | .readByteTaken bus part => Sys2Proof.Machine.execReadByteTaken bus part s
  | .repeatedStartMade bus => Sys2Proof.Machine.execRepeatedStartMade bus s
  | .stopReleased bus dataRose => Sys2Proof.Machine.execStopReleased bus dataRose s
  | .arbitrationLost bus cause => Sys2Proof.Machine.execArbitrationLost bus cause s
  | .probeAnswered bus ack => Sys2Proof.Machine.execProbeAnswered bus ack s
  | .stall bus => Sys2Proof.Machine.execStall bus s
  | .cleared bus => Sys2Proof.Machine.execCleared bus s
  | .clearingFailed bus => Sys2Proof.Machine.execClearingFailed bus s
  | .addressByteHeard bus value => Sys2Proof.Machine.execAddressByteHeard bus value s
  | .writeInByte bus value => Sys2Proof.Machine.execWriteInByte bus value s
  | .readOutByte bus ack => Sys2Proof.Machine.execReadOutByte bus ack s

end Sys2Proof.Machine
end

