-- ==== Sys2Proof/Machine/Idle.lean ====
section
/-! DEFINITION. What the hub does when no command waits (log entry 4): the request handler takes the request at the
head of the intake (R161), and else one millisecond passes on the time base. -/

namespace Sys2Proof.Machine

/-- The command that is the handling of a request of the intake. -/
def requestCommand (r : Request) : Instr :=
  if r.kind = Kind.hello.code then .hello r.tag r.body
  else if r.kind = Kind.hubReset.code then .hubReset r.tag r.body
  else if r.kind = Kind.attentionMask.code then .attentionMask r.tag r.body
  else if r.kind = Kind.linkConfig.code then .linkConfig r.tag r.body
  else if r.kind = Kind.linkStatus.code then .linkStatus r.tag r.body
  else if r.kind = Kind.submit.code then .submit r.tag r.body
  else if r.kind = Kind.cancel.code then .cancel r.tag r.body
  else if r.kind = Kind.query.code then .query r.tag r.body
  else if r.kind = Kind.flush.code then .flush r.tag r.body
  else if r.kind = Kind.fetch.code then .fetch r.tag r.body
  else if r.kind = Kind.busConfig.code then .busConfig r.tag r.body
  else if r.kind = Kind.busStatus.code then .busStatus r.tag r.body
  else if r.kind = Kind.busReset.code then .busReset r.tag r.body
  else if r.kind = Kind.targetAdd.code then .targetAdd r.tag r.body
  else if r.kind = Kind.targetRemove.code then .targetRemove r.tag r.body
  else if r.kind = Kind.targetRelease.code then .targetRelease r.tag r.body
  else if r.kind = Kind.targetQuery.code then .targetQuery r.tag r.body
  else if r.kind = Kind.targetChanges.code then .targetChanges r.tag r.body
  else if r.kind = Kind.pollSet.code then .pollSet r.tag r.body
  else if r.kind = Kind.pollOff.code then .pollOff r.tag r.body
  else if r.kind = Kind.pollRead.code then .pollRead r.tag r.body
  else if r.kind = Kind.listenSet.code then .listenSet r.tag r.body
  else if r.kind = Kind.pageSet.code then .pageSet r.tag r.body
  else if r.kind = Kind.inboundRead.code then .inboundRead r.tag r.body
  else .unknownKind r.kind r.tag r.body

/-- One millisecond passes; every timer that runs counts, and no happening is raised. -/
def tick (s : State) : Host.Outcome State Fault Refusal := act s fun s => s.pass 1000

/-- The command the hub gives itself when none waits: the handling of the request at the head of the intake. -/
def State.ownCommand (s : State) : Option Instr :=
  match s.handler, s.intake with
  | .ready, r :: _ => some (requestCommand r)
  | .ready, [] => none
  | .halted, _ => none

end Sys2Proof.Machine
end

