-- ==== Sys2Proof/Machine/Step.lean ====
section
/-! DEFINITION. One step: the command at the front of the queue, or what the hub does of itself; and where a word's
command is put. -/

namespace Sys2Proof.Machine

/-- One step. With commands waiting, the first is taken and executed over the queue's rest; with none, the hub takes a
request of its intake or lets a millisecond pass (log entry 4). -/
def step (s : State) : Host.Outcome State Fault Refusal :=
  match s.pending with
  | c :: rest => exec c { s with pending := rest }
  | [] =>
    match s.ownCommand with
    | some c => exec c s
    | none => tick s

/-- The state with the command that a word spells put at the front of its queue; no word spells one (log entry 22). -/
def State.withFetchWord (s : State) (nbits w : Nat) : State :=
  match decodeTableWord nbits w with
  | some c => { s with pending := c :: s.pending }
  | none => s

end Sys2Proof.Machine
end

