-- ==== Sys2Proof/Safety.lean ====
section
/-! DEFINITION. What a sound state of the hub is: the manual's laws of the device, each a decidable predicate. Then the
terms claims use: the end of a step, the answer to a request, request bodies as Table 10-4 lays them out, and a run of
bytes through the receiver. -/

namespace Sys2Proof.Machine

/-! ### Laws of the pool and the queues (chapter 1) -/

/-- Each bus queue with the place kept for an ACTIVE record holds at most 16 records (R7). -/
abbrev State.QueuesFit (s : State) : Prop := ∀ b : BusId, (s.bus b).records.length ≤ Config.queuePlaces

/-- A QUEUED, WAITING or ACTIVE record stands on the bus it names (R3). -/
abbrev State.RecordsAtHome (s : State) : Prop := ∀ b : BusId, ∀ t ∈ (s.bus b).records, t.bus = b

/-- A queued record stands in the sub-list of its class (R7). -/
abbrev State.ClassesKept (s : State) : Prop :=
  ∀ b : BusId, (∀ t ∈ (s.bus b).urgent, t.cls = .urgent) ∧ (∀ t ∈ (s.bus b).routine, t.cls = .routine)

/-- The records taken from the pool are at most its 48 (R2). -/
abbrev State.PoolHolds (s : State) : Prop := s.recordsTaken ≤ Config.poolRecords

/-- No ticket is held twice, and none lies outside 1 to 65535 (R6). -/
abbrev State.TicketsDistinct (s : State) : Prop :=
  s.ticketsInUse.Nodup ∧ (∀ k ∈ s.ticketsInUse, 1 ≤ k ∧ k ≤ 65535) ∧ 1 ≤ s.nextTicket ∧ s.nextTicket ≤ 65535

/-- An IDLE engine that holds no work has nothing eligible waiting: no probe due on its bus, no QUEUED record (R12). -/
abbrev State.IdleSelected (s : State) : Prop :=
  ∀ b : BusId, (s.bus b).engine = .idle none →
    s.dueProbe b = none ∧ ∀ t ∈ (s.bus b).queue, t.notBefore.isSome = true

/-! ### Laws of the result store, the directory and the polls (chapters 4, 5 and 6) -/

/-- The store holds at most 24 records, and records wait only while it is full (R79). -/
abbrev State.StoreOrdered (s : State) : Prop :=
  s.store.length ≤ Config.storePlaces ∧ (s.store.length < Config.storePlaces → s.waitList = [])

/-- Only HOST records wait for the store (R81). -/
abbrev State.WaitersAreHost (s : State) : Prop := ∀ d ∈ s.waitList, d.record.isHost = true

/-- The entry of every QUEUED, WAITING or ACTIVE record is in use, on the record's bus (R103, R1). -/
abbrev State.TargetsUsed (s : State) : Prop :=
  ∀ t ∈ s.records, (s.entry t.handle).map Entry.bus = some t.bus

/-- No two entries in use name the same bus and address (R93). -/
abbrev State.TargetsDistinct (s : State) : Prop :=
  ∀ h k : Handle, h ≠ k → ∀ e ∈ s.entry h, ∀ f ∈ s.entry k, ¬ (e.bus = f.bus ∧ e.address = f.address)

/-- No entry in use has the own address of its bus (R129). -/
abbrev State.OwnAddressesApart (s : State) : Prop :=
  ∀ h : Handle, ∀ e ∈ s.entry h, (s.bus e.bus).ownAddress ≠ some e.address

/-- Probe status is NONE in every state but QUARANTINED, and not in it (R90). -/
abbrev State.ProbesInQuarantine (s : State) : Prop :=
  ∀ h : Handle, ∀ e ∈ s.entry h, (e.state = .quarantined ↔ e.probe ≠ .none)

/-- The engine holds the probe of entry `h`, its acknowledge bit not taken yet (R90, R99). -/
def Engine.awaitsProbe (h : Handle) : Engine → Bool
  | .idle (some (.probe k)) => k == h
  | .driving (.stop _) (.probe _) => false
  | .driving _ (.probe k) => k == h
  | .idle (some (.record _)) => false
  | .idle none => false
  | .driving _ (.record _) => false
  | .off => false
  | .occupied _ => false
  | .answering _ => false
  | .clearing _ _ _ => false
  | .faulted => false

/-- Probe status is ISSUED only while the engine of the entry's bus holds the entry's probe (R90). -/
abbrev State.ProbesHeld (s : State) : Prop :=
  ∀ h : Handle, ∀ e ∈ s.entry h, e.probe = .issued → (s.bus e.bus).engine.awaitsProbe h = true

/-- No queued record references a QUARANTINED entry (R18). -/
abbrev State.QueuesOutOfQuarantine (s : State) : Prop :=
  ∀ b : BusId, ∀ t ∈ (s.bus b).queue, s.quarantined t.handle = false

/-- A poll is PAUSED exactly while its target is QUARANTINED, and its target's entry is in use (R111, R103). -/
abbrev State.PollsFollowTargets (s : State) : Prop :=
  ∀ i : PollIndex, ∀ p ∈ s.poll i, ∃ e ∈ s.entry p.handle, (p.state = .paused ↔ e.state = .quarantined)

/-- A queued POLL record is no orphan; a poll that is on has at most one record out, and a poll that is OFF none
(R25, R112). -/
abbrev State.PollRecordsHeld (s : State) : Prop :=
  (∀ b : BusId, ∀ t ∈ (s.bus b).queue, t.isOrphan = false) ∧
  (∀ i : PollIndex, s.records.countP (fun t => t.ofPoll i) ≤ if (s.poll i).isSome then 1 else 0)

/-! ### Laws of the line, the engines and the responder (chapters 2, 3 and 7) -/

/-- An IDLE engine finds its line FREE (Table 3-1, R45). -/
abbrev State.IdleLinesFree (s : State) : Prop :=
  ∀ b : BusId, (s.bus b).engine.value = 0x01#8 → (s.bus b).monitor.line = .free

/-- An engine that is OCCUPIED, DRIVING or ANSWERING finds its line HELD (Table 3-1). -/
abbrev State.LinesHeld (s : State) : Prop :=
  ∀ b : BusId, (s.bus b).engine.value = 0x02#8 ∨ (s.bus b).engine.value = 0x03#8 ∨ (s.bus b).engine.value = 0x04#8 →
    (s.bus b).monitor.line = .held

/-- While a line is FREE both its lines are high (R28). -/
abbrev State.FreeLinesHigh (s : State) : Prop :=
  ∀ b : BusId, (s.bus b).monitor.line = .free → (s.bus b).monitor.bothHigh = true

/-- The byte a bus has to send: some address byte in ADDRESS, the write byte in hand in SEND, the byte of the page copy or FFh
in READ_OUT, and else none, and then no bit of it; of a byte at most eight bits are placed before the ninth pulse (R29, R46,
R48, R53, R136). -/
def Bus.sendsRightly (x : Bus) : Prop :=
  x.bitsPlaced ≤ 9 ∧ (x.sending = none → x.bitsPlaced = 0) ∧
  match x.engine with
  | .driving .start _ => x.sending = none
  | .driving .address _ => x.sending.isSome = true
  | .driving .send w => x.sending = w.writeByte?
  | .driving (.receive _) _ => x.sending = none
  | .driving .restart _ => x.sending = none
  | .driving (.stop _) _ => x.sending = none
  | .answering r => x.sending = r.byteGiven
  | .off => x.sending = none
  | .idle _ => x.sending = none
  | .occupied _ => x.sending = none
  | .clearing _ _ _ => x.sending = none
  | .faulted => x.sending = none

/-- Unless RESET# is held low, every bus holds the byte its engine has to send, and no other (R48, R136). -/
abbrev State.SendingKept (s : State) : Prop := s.resetLow = false → ∀ b : BusId, (s.bus b).sendsRightly

/-- What a bus does to its two lines: nothing but in DRIVING, CLEARING and ANSWERING. Data is low in START and STOP, as the bit
placed last in ADDRESS, SEND and READ_OUT, as the acknowledge bit given for a read byte, low in the start of a clearing, and else
released; clock is high in START, in a clearing after its pulses and never held in ANSWERING (R27, R29, R31, R44, R46,
R48 to R51, R65). -/
def Bus.outputsRight (x : Bus) : Prop :=
  match x.engine with
  | .driving .start _ => x.clockOut = .released ∧ x.dataOut = .low
  | .driving .address _ => x.dataOut = x.bitDrive
  | .driving .send _ => x.dataOut = x.bitDrive
  | .driving (.receive none) _ => x.dataOut = .released
  | .driving (.receive (some ack)) _ => x.dataOut = ackDrive ack
  | .driving .restart _ => x.dataOut = .released
  | .driving (.stop _) _ => x.dataOut = .low
  | .answering _ => x.clockOut = .released ∧ (x.bitsPlaced ≠ 0 → x.dataOut = x.bitDrive)
  | .clearing _ _ .starting => x.clockOut = .released ∧ x.dataOut = .low
  | .clearing _ _ .waiting => x.dataOut = .released
  | .clearing _ _ .exhausted => x.clockOut = .released ∧ x.dataOut = .released
  | .clearing _ _ .stopping => x.clockOut = .released ∧ x.dataOut = .released
  | .off => x.clockOut = .released ∧ x.dataOut = .released
  | .idle _ => x.clockOut = .released ∧ x.dataOut = .released
  | .occupied _ => x.clockOut = .released ∧ x.dataOut = .released
  | .faulted => x.clockOut = .released ∧ x.dataOut = .released

/-- Unless RESET# is held low, every bus does to its lines what its engine's state calls for. -/
abbrev State.OutputsKept (s : State) : Prop := s.resetLow = false → ∀ b : BusId, (s.bus b).outputsRight

/-- Unless RESET# is held low, the byte sent in ADDRESS for a record is the address of its entry with the direction of the
segment in hand (R30, R46). -/
abbrev State.AddressesSent (s : State) : Prop :=
  s.resetLow = false → ∀ (b : BusId) (t : Txn), (s.bus b).engine = .driving .address (.record t) →
    ∀ e, s.entry t.handle = some e → (s.bus b).sending = some (addressByte e.address (Work.record t).reads)

/-- A clearing makes at most nine pulses, and has failed by them only when it has made nine (R43, R65). -/
abbrev State.PulsesFit (s : State) : Prop :=
  ∀ (b : BusId) (kept : Option Txn) (n : Nat) (stage : ClearingStage), (s.bus b).engine = .clearing kept n stage →
    n ≤ 9 ∧ (stage = .exhausted → n = 9)

/-- Inbound records and reservations never exceed 8 (R133). -/
abbrev State.InboundFits (s : State) : Prop := s.inbound.length + s.reservations ≤ Config.inboundPlaces

/-! ### Laws of the host link and the attention unit (chapters 8 and 9) -/

/-- Requests in intake never exceed 6, and with the replies owed never the 8 slots (R152). -/
abbrev State.SlotsFit (s : State) : Prop :=
  s.intake.length ≤ Config.intakePlaces ∧ s.intake.length + s.owed.length ≤ Config.replySlots

/-- No two requests of the intake have the same non-zero tag (R152). -/
abbrev State.IntakeTagsDistinct (s : State) : Prop :=
  ((s.intake.map Request.tag).filter fun t => t != 0x00#8).Nodup

/-- The cache holds at most 8 entries, no two with the same tag, none with tag 0, and none with the tag of a request in
the intake (R154, R150). -/
abbrev State.CacheSound (s : State) : Prop :=
  s.cache.length ≤ Config.cacheEntries ∧ (s.cache.map CacheEntry.tag).Nodup ∧
  (∀ c ∈ s.cache, c.tag ≠ 0x00#8 ∧ ∀ r ∈ s.intake, r.tag ≠ c.tag)

/-- How many replies owed carry a mark. -/
def State.marksOwed (s : State) (m : ReplyMark) : Nat := s.owed.countP fun r => r.mark == m

/-- Unless RESET# is held low, one reply owed is the switch point exactly while a rate is pending, and one is the reset
point exactly while the handler is HALTED (R156, R165). -/
abbrev State.MarksKept (s : State) : Prop :=
  s.resetLow = false →
    s.marksOwed .switchPoint = (if s.pendingRate.isSome then 1 else 0) ∧
    s.marksOwed .resetPoint = (if s.handler = .halted then 1 else 0)

/-- The announced set is contained in the set of raised flags (R170). -/
abbrev State.AnnouncedRaised (s : State) : Prop := s.announced.subset (raised s) = true

/-- Unless RESET# is held low, an idle transmitter has neither a reply nor a notice to send (R155, R171). -/
abbrev State.SendsWhatItOwes (s : State) : Prop :=
  s.resetLow = false → s.transmitter = .idle → s.filled = [] ∧ noticePending s = false

/-! ### The end of a step (R155, R170, R171) -/

/-- What is announced once lowered flags have left the set (R170). -/
def State.stillAnnounced (s : State) : FlagSet := s.announced.inter (raised s)

/-- `t` is `u` at the end of its step. Lowered flags have left the announced set. A frame in progress goes on, and a
transmitter with nothing to send stays idle; an idle one takes the pending notice, or the filled slot first in the sending
order: either, when both are there (R155), but a restart notice goes before any reply (R159). -/
def Settled (u t : State) : Prop :=
  (t = { u with announced := u.stillAnnounced } ∧
    (u.transmitter = .idle → noticePending u = false ∧ u.filled = [])) ∨
  (t = { u with transmitter := .notice (noticeFrame u), announced := eligible u, freeIndex := t.freeIndex } ∧
    u.transmitter = .idle ∧ noticePending u = true) ∨
  (∃ r rest, u.filled = r :: rest ∧ u.transmitter = .idle ∧
    (noticePending u = true → (u.restarted && !u.announced.restarted) = false) ∧
    t = { u with transmitter := .reply r, filled := rest, announced := u.stillAnnounced, freeIndex := t.freeIndex })

/-! ### Requests and their replies (R153, R154, R161, R163, R174) -/

/-- The handler may take `r` now: READY, RESET# high, and `r` at the head of the intake (R161). -/
abbrev State.ready (s : State) (r : Request) : Prop :=
  s.resetLow = false ∧ s.handler = .ready ∧ s.intake.head? = some r

/-- The state as the handler hands a request on: the request has left the intake (R161). -/
def State.taking (s : State) : State := { s with intake := s.intake.tail }

/-- The reply frame of a request (R153, R163, R174): its kind plus 80h, its tag, the code, the room and the fields. -/
def replyTo (kind tag : Byte) (code : ReplyCode) (room : Nat) (fields : List Byte) : Frame :=
  { kind := kind + 0x80#8, tag := tag, body := code.value :: byteOf room :: fields }

/-- `t` ends the step in which the owner's action led to `u` and the reply was placed behind the replies owed (R153) and,
for a tag other than 0, written to the cache, the oldest of 8 leaving (R154). -/
def Answered (u t : State) (kind tag : Byte) (code : ReplyCode) (fields : List Byte) (mark : ReplyMark) : Prop :=
  let f := replyTo kind tag code (6 - u.intake.length) fields
  Settled { u with
    filled := u.filled ++ [{ frame := f, mark := mark }]
    cache := if tag = 0x00#8 then u.cache
      else (if u.cache.length < 8 then u.cache else u.cache.tail) ++ [{ tag := tag, kind := kind, frame := f }] } t

/-- The command answers a next state `t` in which the owner's action led to `u` and its reply was placed. -/
def Replies (c : Instr) (s u : State) (kind tag : Byte) (code : ReplyCode) (fields : List Byte) (mark : ReplyMark) : Prop :=
  ∃ t, exec c s = .next t ∧ Answered u t kind tag code fields mark

/-- The command answers a next state in which its own effect led to `u`. -/
def Leads (c : Instr) (s u : State) : Prop := ∃ t, exec c s = .next t ∧ Settled u t

/-- The request a request command stands for. -/
def requestOf : Instr → Option Request
  | .hello t b => some { kind := 0x01#8, tag := t, body := b }
  | .hubReset t b => some { kind := 0x02#8, tag := t, body := b }
  | .attentionMask t b => some { kind := 0x03#8, tag := t, body := b }
  | .linkConfig t b => some { kind := 0x04#8, tag := t, body := b }
  | .linkStatus t b => some { kind := 0x05#8, tag := t, body := b }
  | .submit t b => some { kind := 0x10#8, tag := t, body := b }
  | .cancel t b => some { kind := 0x11#8, tag := t, body := b }
  | .query t b => some { kind := 0x12#8, tag := t, body := b }
  | .flush t b => some { kind := 0x13#8, tag := t, body := b }
  | .fetch t b => some { kind := 0x14#8, tag := t, body := b }
  | .busConfig t b => some { kind := 0x20#8, tag := t, body := b }
  | .busStatus t b => some { kind := 0x21#8, tag := t, body := b }
  | .busReset t b => some { kind := 0x22#8, tag := t, body := b }
  | .targetAdd t b => some { kind := 0x30#8, tag := t, body := b }
  | .targetRemove t b => some { kind := 0x31#8, tag := t, body := b }
  | .targetRelease t b => some { kind := 0x32#8, tag := t, body := b }
  | .targetQuery t b => some { kind := 0x33#8, tag := t, body := b }
  | .targetChanges t b => some { kind := 0x34#8, tag := t, body := b }
  | .pollSet t b => some { kind := 0x40#8, tag := t, body := b }
  | .pollOff t b => some { kind := 0x41#8, tag := t, body := b }
  | .pollRead t b => some { kind := 0x42#8, tag := t, body := b }
  | .listenSet t b => some { kind := 0x50#8, tag := t, body := b }
  | .pageSet t b => some { kind := 0x51#8, tag := t, body := b }
  | .inboundRead t b => some { kind := 0x52#8, tag := t, body := b }
  | .unknownKind k t b => some { kind := k, tag := t, body := b }
  | .byteReceived _ => none
  | .gapTimerExpiry => none
  | .frameSent => none
  | .powerOn => none
  | .resetPinAssert => none
  | .resetPinRelease => none
  | .deadlineExpiry _ => none
  | .retryGapEnd _ => none
  | .pollPeriodExpiry _ => none
  | .probeTimerExpiry _ => none
  | .startSeen _ _ => none
  | .stopSeen _ => none
  | .busFree _ => none
  | .stuck _ => none
  | .startMade _ => none
  | .addressByteAnswered _ _ => none
  | .writeByteAnswered _ _ => none
  | .readByteTaken _ _ => none
  | .repeatedStartMade _ => none
  | .stopReleased _ _ => none
  | .arbitrationLost _ _ => none
  | .probeAnswered _ _ => none
  | .stall _ => none
  | .cleared _ => none
  | .clearingFailed _ => none
  | .addressByteHeard _ _ => none
  | .writeInByte _ _ => none
  | .readOutByte _ _ => none

/-- The body length of a kind that has one length alone (Table 10-4). -/
def fixedLength : Kind → Option Nat
  | .hello => some 0 | .hubReset => some 0 | .linkStatus => some 0
  | .attentionMask => some 1 | .linkConfig => some 3
  | .cancel => some 2 | .query => some 2
  | .flush => some 1 | .busStatus => some 1 | .busReset => some 1
  | .fetch => some 1 | .targetChanges => some 1 | .pollRead => some 1 | .inboundRead => some 1
  | .busConfig => some 6
  | .targetRemove => some 1 | .targetRelease => some 1 | .targetQuery => some 1
  | .pollOff => some 1 | .listenSet => some 3
  | .submit => none | .targetAdd => none | .pollSet => none | .pageSet => none

/-! ### The values after a full reset -/

/-- A bus after a reset of the whole hub (R26, R27, R42, R75, R143); the level sensed on its lines is the one given. -/
def busAfterReset (bothHigh : Bool) : Bus :=
  { engine := .off, speed := .standard, stretchLimit := 25, stretchTimer := 0, clockOut := .released,
    dataOut := .released, sending := none, bitsPlaced := 0,
    monitor := { line := .held, bothHigh := bothHigh, freeTimer := 0, freeRaised := false, freeTime := 50,
                 stuckTimer := 0, stuckLimit := 35 }
    urgent := [], routine := [], urgentRun := 0, okCompletions := 0, arbitrationLosses := 0, stalls := 0,
    clearings := 0, faults := 0, pendingCleared := 0, pendingFaulted := 0, pendingRecovered := 0,
    ownAddress := none, broadcastAccept := false, page := [] }

/-- `t` holds the values every block takes at a reset of the whole hub (R26, R42, R75, R89, R110, R128, R143, R159, R161,
R166, R169), at the link rate given; commands that wait and the time base are those of `s` (log entry 10), the level
sensed on a line is whatever it is (log entry 11), and the length, running check and gap timer of no frame are a choice (log entry
32). -/
def AfterReset (rate : LinkRate) (s t : State) : Prop :=
  t.pending = s.pending ∧ t.time = s.time ∧ t.rate = rate ∧ t.pendingRate = none ∧
  t.receiver = { state := .hunt, kind := none, tag := none, length := 0, body := [], running := 0xFFFF#16,
                 checkHigh := none, gapTimer := 0 } ∧
  t.discards = { gap := 0, length := 0, check := 0, kind := 0, duplicate := 0 } ∧
  t.intake = [] ∧ t.filled = [] ∧ t.cache = [] ∧ t.handler = .ready ∧ t.restarted = true ∧ t.mask = FlagSet.all ∧
  t.nextTicket = 1 ∧ t.store = [] ∧ t.waitList = [] ∧ t.inbound = [] ∧
  (∀ h, t.entry h = none) ∧ (∀ i, t.poll i = none) ∧
  (∀ b, t.bus b = busAfterReset (t.bus b).monitor.bothHigh)

/-- The notice that announces RESTARTED is being sent, and RESTARTED alone is announced (R159, R166, R167). -/
def RestartAnnounced (t : State) : Prop :=
  t.transmitter = .notice { kind := 0xFF#8, tag := 0x00#8, body := [0x01#8, 0x00#8, 0x00#8, 0x00#8, 0x00#8, 0x00#8] } ∧
  t.announced = { FlagSet.empty with restarted := true }

/-! ### The receiver and the transmitter -/

/-- The frame on TXD. -/
def frameSending : Transmitter → Option Frame
  | .idle => none
  | .reply r => some r.frame
  | .notice f => some f

/-- The receiver in HUNT or SYNC, or entering HEADER: nothing is gathered, and the running check is FFFFh, in HUNT and SYNC by
choice (log entry 32). -/
def freshReceiver (st : ReceiverState) : Receiver :=
  { state := st, kind := none, tag := none, length := 0, body := [], running := 0xFFFF#16, checkHigh := none,
    gapTimer := 0 }

/-- A saturating count after one more rise (section 0.7). -/
def rise (greatest n : Nat) : Nat := min greatest (n + 1)

/-- What the room check makes of a frame passed on in `v` (R151). -/
def RoomChecked (c : Instr) (s v : State) (r : Request) : Prop :=
  (8 ≤ v.intake.length + v.owed.length → Leads c s v) ∧
  (v.intake.length + v.owed.length < 8 →
    (v.intake.length < 6 → Leads c s { v with intake := v.intake ++ [r] }) ∧
    (6 ≤ v.intake.length → Leads c s { v with filled := v.filled ++
      [{ frame := { kind := r.kind + 0x80#8, tag := r.tag, body := [0x01#8, 0x00#8] }, mark := .plain }] }))

/-! ### Request bodies as Table 10-4 lays them out -/

/-- An option present fits its field. -/
def optionFits (bound : Nat) (o : Option Nat) : Prop := ∀ n ∈ o, n < bound

def bit (b : Bool) : Nat := if b then 1 else 0

/-- A segment: direction, length, and for direction 00h that many bytes. -/
def SegmentField.body (f : SegmentField) : List Byte := f.direction :: f.length :: f.bytes

def SegmentField.shaped (f : SegmentField) : Prop :=
  if f.direction = 0x00#8 then f.bytes.length = f.length.toNat else f.bytes = []

def SubmitFields.body (f : SubmitFields) : List Byte :=
  [f.handle, f.cls, byteOf (bit f.deadline.isSome + 2 * bit f.attempts.isSome)]
    ++ (match f.deadline with
        | some d => bytes16 d
        | none => [])
    ++ (match f.attempts with
        | some a => [byteOf a]
        | none => [])
    ++ [byteOf f.segments.length] ++ f.segments.flatMap SegmentField.body

/-- Fields a SUBMIT body can hold (R175): one to four segments, the length within 6 to 240. -/
def SubmitFields.shaped (f : SubmitFields) : Prop :=
  optionFits 65536 f.deadline ∧ optionFits 256 f.attempts ∧ 1 ≤ f.segments.length ∧ f.segments.length ≤ 4 ∧
  (∀ g ∈ f.segments, g.shaped) ∧ f.body.length ≤ 240

def TargetFields.body (f : TargetFields) : List Byte :=
  [f.bus, f.address, byteOf (bit f.attempts.isSome + 2 * bit f.retryGap.isSome + 4 * bit f.threshold.isSome
      + 8 * bit f.probeInterval.isSome)]
    ++ (match f.attempts with
        | some a => [byteOf a]
        | none => [])
    ++ (match f.retryGap with
        | some g => bytes16 g
        | none => [])
    ++ (match f.threshold with
        | some n => [byteOf n]
        | none => [])
    ++ (match f.probeInterval with
        | some n => bytes16 n
        | none => [])

/-- Fields a TARGET_ADD body can hold (R175). -/
def TargetFields.shaped (f : TargetFields) : Prop :=
  optionFits 256 f.attempts ∧ optionFits 65536 f.retryGap ∧ optionFits 256 f.threshold ∧
  optionFits 65536 f.probeInterval

def PollFields.body (f : PollFields) : List Byte :=
  [f.index, f.handle, f.cls, f.policy] ++ bytes16 f.period ++ [byteOf f.writeBytes.length] ++ f.writeBytes
    ++ [byteOf f.readLength] ++ f.mask

/-- Fields a POLL_SET body can hold (R175): the mask has exactly read-length bytes. -/
def PollFields.shaped (f : PollFields) : Prop :=
  f.period < 65536 ∧ f.mask.length = f.readLength ∧ 8 + f.writeBytes.length + f.readLength ≤ 240

/-- A segment field within its ranges, and the segment it names (R14, check 1). -/
def SegmentField.means (f : SegmentField) (x : Segment) : Prop :=
  1 ≤ f.length.toNat ∧ f.length.toNat ≤ 32 ∧
  ((f.direction = 0x00#8 ∧ x = .write f.bytes) ∨ (f.direction = 0x01#8 ∧ x = .read f.length.toNat))

/-- Every field of the SUBMIT is in its range, and names this target, class and segments (R14, check 1). -/
def SubmitFields.means (f : SubmitFields) (h : Handle) (cls : TxnClass) (segments : List Segment) : Prop :=
  f.handle.toNat = h.val ∧ f.cls = (match cls with
    | .routine => 0x00#8
    | .urgent => 0x01#8) ∧
  List.Forall₂ SegmentField.means f.segments segments ∧ (f.segments.map fun g => g.length.toNat).sum ≤ 64 ∧
  (∀ d ∈ f.deadline, 1 ≤ d ∧ d ≤ 65000) ∧ (∀ a ∈ f.attempts, 1 ≤ a ∧ a ≤ 8)

/-- Every field of the TARGET_ADD is in its range, and names this bus and address (R92, check 1). -/
def TargetFields.means (f : TargetFields) (b : BusId) (a : BusAddress) : Prop :=
  f.bus.toNat = b.val ∧ f.address.toNat = a.toNat ∧ 8 ≤ a.toNat ∧ a.toNat ≤ 119 ∧
  (∀ n ∈ f.attempts, 1 ≤ n ∧ n ≤ 8) ∧ (∀ n ∈ f.retryGap, 1 ≤ n ∧ n ≤ 1000) ∧
  (∀ n ∈ f.threshold, 1 ≤ n ∧ n ≤ 32) ∧ (∀ n ∈ f.probeInterval, 100 ≤ n ∧ n ≤ 60000)

/-- Every field of the POLL_SET is in its range, and names this poll, target, class and policy (R113, check 1). -/
def PollFields.means (f : PollFields) (i : PollIndex) (h : Handle) (cls : TxnClass) (policy : Policy) : Prop :=
  f.index.toNat = i.val ∧ f.handle.toNat = h.val ∧
  f.cls = (match cls with
    | .routine => 0x00#8
    | .urgent => 0x01#8) ∧
  f.policy = (match policy with
    | .change => 0x00#8
    | .every => 0x01#8) ∧
  10 ≤ f.period ∧ f.period ≤ 65000 ∧ f.writeBytes.length ≤ 4 ∧ 1 ≤ f.readLength ∧ f.readLength ≤ 8

/-! ### Records and their places (chapter 1) -/

/-- The record as it is decided outside its engine: its read bytes are discarded (R16, R78). -/
def Txn.discarded (t : Txn) : Txn := { t with progress := { t.progress with readBytes := [] } }

/-- The bus with the record at the tail of the sub-list of its class (R8, R9). -/
def atTail (x : Bus) (t : Txn) : Bus :=
  match t.cls with
  | .urgent => { x with urgent := x.urgent ++ [t] }
  | .routine => { x with routine := x.routine ++ [t] }

/-- The bus with the record at the head of the sub-list of its class (R10). -/
def atHead (x : Bus) (t : Txn) : Bus :=
  match t.cls with
  | .urgent => { x with urgent := t :: x.urgent }
  | .routine => { x with routine := t :: x.routine }

/-- The bus with only those queued records that `keep` keeps, in their order. -/
def keeping (x : Bus) (keep : Txn → Bool) : Bus :=
  { x with urgent := x.urgent.filter keep, routine := x.routine.filter keep }

/-- HOST records decided one after the other outside their engine (R22, R24). -/
def State.concludeEach (s : State) (ts : List Txn) (o : TxnOutcome) : State :=
  ts.foldl (fun u t => u.conclude t.discarded o) s

/-! ### The line and the engine (chapters 2 and 3) -/

/-- The monitor after a start, repeated start or irregular start: HELD, both timers afresh (R36 to R38). -/
def lineStarted (m : Monitor) : Monitor :=
  { m with line := .held, bothHigh := false, freeTimer := 0, freeRaised := false, stuckTimer := 0 }

/-- The monitor after a stop: FREE, the free timer counting from 0 (R36, R37). -/
def lineStopped (m : Monitor) : Monitor :=
  { m with line := .free, bothHigh := true, freeTimer := 0, freeRaised := false, stuckTimer := 0 }

/-- The monitor at bus-free: FREE, the free timer at the free time (R37). -/
def lineFreed (m : Monitor) : Monitor :=
  { m with line := .free, bothHigh := true, freeTimer := m.freeTime, freeRaised := true, stuckTimer := 0 }

/-- The monitor after clock went low within a byte: the timers start afresh, the line state stays (R37, R38). -/
def clockFell (m : Monitor) : Monitor :=
  { m with bothHigh := false, freeTimer := 0, freeRaised := false, stuckTimer := 0 }

/-- The bus at rest in a state that drives neither line, with the monitor given (R43). -/
def atRest (x : Bus) (e : Engine) (m : Monitor) : Bus :=
  { x with engine := e, clockOut := .released, dataOut := .released, sending := none, bitsPlaced := 0
           stretchTimer := 0, monitor := m }

/-- The engine enters IDLE, and selection is taken (R12, R45). -/
def State.idleAgain (s : State) (b : BusId) : State :=
  (s.setBus b (atRest (s.bus b) (.idle none) (s.bus b).monitor)).select b

/-- The engine of `x` in CLEARING at the entry: no pulse made, clock waited for, the clearings counter risen, the stuck
timer at 0 (R38, R65, R72). -/
def clearingBegun (x : Bus) (stalled : Option Txn) : Bus :=
  { atRest x (.clearing stalled 0 .waiting) { x.monitor with stuckTimer := 0 } with clearings := rise 65535 x.clearings }

/-- The work whose start is not made, or that goes back with its bus lost, is given back (R10, R101). -/
def State.unmade (s : State) (b : BusId) : Work → State
  | .record t => s.giveBack t .headQueued
  | .probe h => s.giveUpProbe b h

/-- The work of an engine that has lost the bus is reported (R10, R57, R101). -/
def State.lost (s : State) (b : BusId) : Work → State
  | .record t => s.reportLoss t
  | .probe h => s.giveUpProbe b h

/-- The bus as its engine has just lost arbitration: OCCUPIED, both lines released, the loss counted (R57, R58). -/
def lossCounted (x : Bus) (hearing : Option (List Bool)) (m : Monitor) : Bus :=
  { atRest x (.occupied hearing) m with arbitrationLosses := rise 65535 x.arbitrationLosses }

/-- What a bit does to data: low for a 0, released for a 1 (R29). -/
def bitOnData (b : Bool) : Drive := if b then .released else .low

/-- The engine drives for the work at the beginning of this phase, sending this byte there, its first bit placed; data is low for
a start, a stop and an acknowledge given, and clock is low but in a start (R31, R32, R44, R49, R51). Clock has fallen at the
beginning of the phase (R37, log entry 12), and a wait for clock begins afresh (R32). -/
def driveOn (x : Bus) (p : DrivePhase) (w : Work) (sent : Option Byte) : Bus :=
  { x with
    engine := .driving p w, sending := sent, stretchTimer := 0, monitor := clockFell x.monitor
    bitsPlaced := if sent.isSome then 1 else 0
    clockOut := if p = .start then .released else .low
    dataOut := match p with
      | .start => .low
      | .stop _ => .low
      | .receive (some .acknowledged) => .low
      | _ => if sent.any (fun v => !v.getLsbD 7) then .low else .released }

/-- The segment in hand of the work; a probe has none. -/
def Work.segment? : Work → Option Segment
  | .record t => t.segments[t.progress.segmentInHand]?
  | .probe _ => none

/-- The byte is an address byte for the work on bus `b`: the address of its entry with the direction of the segment in hand,
write for a probe (R30, R46, R53, R90). THE MODEL'S CHOICE (log entry 26): with the entry gone, or its address the bus's own, some
address of 08h to 77h but the bus's own (R30, R129). -/
def State.addresses (s : State) (b : BusId) (w : Work) (byte : Byte) : Prop :=
  let own := (s.bus b).ownAddress
  let direction : Nat := match w.segment? with
    | some (.read _) => 1
    | _ => 0
  (∀ e, s.entry w.handle = some e → own ≠ some e.address → byte.toNat = 2 * e.address.toNat + direction) ∧
  ((∀ e, s.entry w.handle = some e → own = some e.address) →
    byte.toNat % 2 = direction ∧ 16 ≤ byte.toNat ∧ byte.toNat < 240 ∧ ∀ a, own = some a → byte.toNat / 2 ≠ a.toNat)

/-- The bus in ADDRESS as its start hold is over: clock is pulled low, and the first bit of the address byte placed (R44,
R46). -/
def inAddress (x : Bus) (w : Work) (byte : Byte) : Bus :=
  { x with engine := .driving .address w, clockOut := .low, dataOut := bitOnData (byte.getLsbD 7), sending := some byte
           bitsPlaced := 1 }

/-- The inbound record a reception becomes (Table 7-5). -/
def inboundOf (b : BusId) (r : Reception) (ended : EndedBy) : Inbound :=
  { bus := b, kind := r.kind, broadcast := r.broadcast, truncated := r.truncated, endedBy := ended, count := r.count,
    data := r.data }

/-! ### A run of bytes through the receiver (R147) -/

/-- The receiver after a run of bytes, and what each byte brought about. -/
def Receiver.takeAll (r : Receiver) : List Byte → Receiver × List ByteEffect
  | [] => (r, [])
  | b :: bs =>
    let x := r.take b
    let y := x.1.takeAll bs
    (y.1, x.2 :: y.2)

end Sys2Proof.Machine
end

