-- ==== Sys2Proof/WellFormed.lean ====
section
/-! DEFINITION. Which commands are well formed: a request body fits a frame (Table 8-2), an UNKNOWN_KIND request has a
request kind that Table 10-1 does not list, and a ticket lies in 1 to 65535 (R6). Buses, handles and poll indexes are
in range by their types. -/

namespace Sys2Proof

/-- A body that a frame can carry: 0 to 240 bytes (Table 8-2). -/
def bodyFits (body : List Byte) : Bool := decide (body.length ≤ Config.maxBody)

/-- A request kind, 00h to 7Fh, that Table 10-1 does not list (R162). -/
def kindUnknown (k : Byte) : Bool := decide (k.toNat < 128) && !kindListed k

/-- A ticket value that can be issued (R6). -/
def ticketInRange (t : Nat) : Bool := decide (1 ≤ t ∧ t ≤ 65535)

def RecordName.wellFormed : RecordName → Bool
  | .host t => ticketInRange t
  | .poll _ => true

/-- The body of the frame a request command stands for. -/
def Instr.body? : Instr → Option (List Byte)
  | .hello _ b => some b
  | .hubReset _ b => some b
  | .attentionMask _ b => some b
  | .linkConfig _ b => some b
  | .linkStatus _ b => some b
  | .submit _ b => some b
  | .cancel _ b => some b
  | .query _ b => some b
  | .flush _ b => some b
  | .fetch _ b => some b
  | .busConfig _ b => some b
  | .busStatus _ b => some b
  | .busReset _ b => some b
  | .targetAdd _ b => some b
  | .targetRemove _ b => some b
  | .targetRelease _ b => some b
  | .targetQuery _ b => some b
  | .targetChanges _ b => some b
  | .pollSet _ b => some b
  | .pollOff _ b => some b
  | .pollRead _ b => some b
  | .listenSet _ b => some b
  | .pageSet _ b => some b
  | .inboundRead _ b => some b
  | .unknownKind _ _ b => some b
  | .byteReceived _ => none
  | .gapTimerExpiry => none
  | .frameSent => none
  | .powerOn => none
  | .resetPinAssert => none
  | .resetPinRelease => none
  | .deadlineExpiry _ => none
  | .retryGapEnd _ => none
  | .pollPeriodExpiry _ => none
  | .probeTimerExpiry _ => none
  | .startSeen _ _ => none
  | .stopSeen _ => none
  | .busFree _ => none
  | .stuck _ => none
  | .startMade _ => none
  | .addressByteAnswered _ _ => none
  | .writeByteAnswered _ _ => none
  | .readByteTaken _ _ => none
  | .repeatedStartMade _ => none
  | .stopReleased _ _ => none
  | .arbitrationLost _ _ => none
  | .probeAnswered _ _ => none
  | .stall _ => none
  | .cleared _ => none
  | .clearingFailed _ => none
  | .addressByteHeard _ _ => none
  | .writeInByte _ _ => none
  | .readOutByte _ _ => none

/-- The kind operand of an UNKNOWN_KIND command is a kind the table does not list. -/
def Instr.kindFits : Instr → Bool
  | .unknownKind k _ _ => kindUnknown k
  | _ => true

/-- The record a timer command names is one that can exist. -/
def Instr.nameFits : Instr → Bool
  | .deadlineExpiry t => ticketInRange t
  | .retryGapEnd n => n.wellFormed
  | _ => true

/-- A well-formed command. -/
def Instr.wellFormed (i : Instr) : Bool :=
  (match i.body? with
   | some b => bodyFits b
   | none => true) && i.kindFits && i.nameFits

end Sys2Proof
end

