-- ==== Sys2Proof/Certificates/Slice0/Obligations.lean ====
section
/-! DEFINITION. The statements for the provers. Each docstring names what of the manual it formalises. A statement that a
command leads to a state gives the whole next state but for the sending side, which `Settled` gives: so each is the
command's result, its frame and its completion in one. -/

open Sys2Proof Sys2Proof.Machine

/-! ### Steps, resets and the pin -/

/-- A step takes the command at the front of the queue and runs it over the queue's rest. -/
def Obligations.StepTakesTheFrontCommand : Prop :=
  ∀ (c : Instr) (rest : List Instr) (s : State),
    step { s with pending := c :: rest } = exec c { s with pending := rest }

/-- THE MODEL'S CHOICE (log entry 4): with no command waiting, a READY handler takes the request at the head of the intake,
and otherwise a millisecond passes. -/
def Obligations.EmptyQueueTakesTheIntakeHeadOrTicks : Prop :=
  ∀ s : State, s.pending = [] →
    (∀ (r : Request) (rest : List Request), s.handler = .ready → s.intake = r :: rest → r.kind.toNat < 128 →
      ∃ c : Instr, requestOf c = some r ∧ c.kindFits = true ∧ step s = exec c s) ∧
    ((s.handler = .halted ∨ s.intake = []) → s.resetLow = false →
      ∃ t, step s = .next t ∧ Settled (s.pass 1000) t)

/-- THE MODEL'S CHOICE (log entry 19): every well-formed command answers a next state in every state, and a request that no
frame can carry, or an UNKNOWN_KIND of a listed kind, stops. -/
def Obligations.WellFormedCommandsAnswer : Prop :=
  ∀ (c : Instr) (s : State),
    (c.wellFormed = true → ∃ t, exec c s = .next t) ∧
    ((∃ b, c.body? = some b ∧ 240 < b.length) ∨ c.kindFits = false → exec c s = .fault .illFormed)

/-- POWER_ON, RESET_PIN_ASSERT, RESET_PIN_RELEASE, and FRAME_SENT at a reset point: what each reset of the whole hub leaves
(sections 9.4, 1.14, 2.9, 3.14, 4.7, 5.9, 6.8, 7.8, 8.10). THE MODEL'S CHOICES: waiting commands and the time base are kept
(log entry 10); at a reset point the monitors sense on, and the level of a line the hub did not hold is kept (log entry 11);
POWER_ON with RESET# low keeps the pin low and sends nothing (log entry 17); a pin already at its level changes nothing (log
entry 2); what the receiver holds while there is no frame (log entry 32). -/
def Obligations.FullResetsLeaveTheirValues : Prop :=
  ∀ s : State,
    (∃ t, exec .powerOn s = .next t ∧ AfterReset .r115200 s t ∧ t.resetLow = s.resetLow ∧
      (s.resetLow = false → RestartAnnounced t) ∧
      (s.resetLow = true → t.transmitter = .idle ∧ t.announced = FlagSet.empty)) ∧
    (s.resetLow = true →
      (∃ t, exec .resetPinRelease s = .next t ∧ AfterReset .r115200 s t ∧ t.resetLow = false ∧ RestartAnnounced t) ∧
      exec .resetPinAssert s = .next s) ∧
    (s.resetLow = false →
      (∃ t, exec .resetPinAssert s = .next t ∧
        t = { s with resetLow := true, transmitter := .idle, buses := t.buses } ∧
        ∀ b, t.bus b = { s.bus b with clockOut := .released, dataOut := .released, sending := none, bitsPlaced := 0 }) ∧
      exec .resetPinRelease s = .next s ∧
      (∀ r, s.transmitter = .reply r → r.mark = .resetPoint →
        ∃ t, exec .frameSent s = .next t ∧ AfterReset s.rate s t ∧ t.resetLow = false ∧ RestartAnnounced t ∧
          ∀ b, (s.bus b).clockOut = .released → (s.bus b).dataOut = .released → (s.bus b).engine.value ≠ 0x03#8 →
            (s.bus b).engine.value ≠ 0x05#8 → (∀ r, (s.bus b).engine = .answering r → r.byteGiven = none) →
            (t.bus b).monitor.bothHigh = (s.bus b).monitor.bothHigh))

/-! ### The host link (chapter 8) -/

/-- BYTE_RECEIVED by the receiver's state (Table 8-3, the discards counted), and GAP_TIMER_EXPIRY: more than 20 ms have then
passed since the last byte (R147 to R149; the time is log entry 5). THE MODEL'S CHOICES: GAP_TIMER_EXPIRY in HUNT, where no gap
timer runs, changes nothing (log entry 2); what the receiver holds in HUNT and SYNC, with no frame in assembly (log entry
32). -/
def Obligations.ReceiverActsByItsState : Prop :=
  ∀ (s : State) (v : Byte), s.resetLow = false →
    (s.receiver.state = .hunt →
      Leads (.byteReceived v) s
        { s with receiver := if v = 0xA9#8 then freshReceiver .sync else freshReceiver .hunt } ∧
      Leads .gapTimerExpiry s s) ∧
    (s.receiver.state = .sync →
      Leads (.byteReceived v) s
        { s with receiver := if v = 0x5E#8 then freshReceiver .header else if v = 0xA9#8 then freshReceiver .sync
                             else freshReceiver .hunt }) ∧
    (s.receiver.state = .header → s.receiver.kind = none →
      (v.toNat < 128 → Leads (.byteReceived v) s
        { s with receiver := { s.receiver with kind := some v, running := checkByte s.receiver.running v, gapTimer := 0 } }) ∧
      (128 ≤ v.toNat → Leads (.byteReceived v) s
        { s with receiver := freshReceiver .hunt, discards := { s.discards with kind := rise 65535 s.discards.kind } })) ∧
    (s.receiver.state = .header → s.receiver.kind ≠ none → s.receiver.tag = none →
      Leads (.byteReceived v) s
        { s with receiver := { s.receiver with tag := some v, running := checkByte s.receiver.running v, gapTimer := 0 } }) ∧
    (s.receiver.state = .header → s.receiver.kind ≠ none → s.receiver.tag ≠ none →
      (v.toNat ≤ 240 → Leads (.byteReceived v) s
        { s with receiver := { s.receiver with
            length := v.toNat, running := checkByte s.receiver.running v, gapTimer := 0
            state := if v.toNat = 0 then .check else .body } }) ∧
      (241 ≤ v.toNat → Leads (.byteReceived v) s
        { s with receiver := freshReceiver .hunt
                 discards := { s.discards with length := rise 65535 s.discards.length } })) ∧
    (s.receiver.state = .body →
      Leads (.byteReceived v) s
        { s with receiver := { s.receiver with
            body := s.receiver.body ++ [v], running := checkByte s.receiver.running v, gapTimer := 0
            state := if s.receiver.body.length + 1 < s.receiver.length then .body else .check } }) ∧
    (s.receiver.state = .check → s.receiver.checkHigh = none →
      Leads (.byteReceived v) s { s with receiver := { s.receiver with checkHigh := some v, gapTimer := 0 } }) ∧
    (∀ h, s.receiver.state = .check → s.receiver.checkHigh = some h → nat16 h v ≠ s.receiver.running.toNat →
      Leads (.byteReceived v) s
        { s with receiver := freshReceiver .hunt, discards := { s.discards with check := rise 65535 s.discards.check } }) ∧
    (s.receiver.state ≠ .hunt →
      Leads .gapTimerExpiry s
        { s.pass ((21 - s.receiver.gapTimer) * 1000) with
          receiver := freshReceiver .hunt, discards := { s.discards with gap := rise 65535 s.discards.gap } })

/-- The byte that completes a good frame takes it through the tag check and the room check in the same step (R150,
R151): counted as a duplicate, answered by a re-send or dropped, or checked for room, a cache entry of another kind
being removed first. THE MODEL'S CHOICE (log entry 32): what the receiver holds in HUNT, with no frame in assembly. -/
def Obligations.GoodFramePassesTagAndRoomChecks : Prop :=
  ∀ (s : State) (h v : Byte) (r : Request), s.resetLow = false →
    s.receiver.state = .check → s.receiver.checkHigh = some h → nat16 h v = s.receiver.running.toNat →
    s.receiver.kind = some r.kind → s.receiver.tag = some r.tag → s.receiver.body = r.body →
    let s₀ : State := { s with receiver := freshReceiver .hunt }
    (r.tag = 0x00#8 → RoomChecked (.byteReceived v) s s₀ r) ∧
    (r.tag ≠ 0x00#8 → (∃ q ∈ s.intake, q.tag = r.tag) →
      Leads (.byteReceived v) s
        { s₀ with discards := { s.discards with duplicate := rise 65535 s.discards.duplicate } }) ∧
    (r.tag ≠ 0x00#8 → (∀ q ∈ s.intake, q.tag ≠ r.tag) → (∀ c ∈ s.cache, c.tag ≠ r.tag) →
      RoomChecked (.byteReceived v) s s₀ r) ∧
    (r.tag ≠ 0x00#8 → (∀ q ∈ s.intake, q.tag ≠ r.tag) →
      ∀ c, (s.cache.find? fun c => c.tag == r.tag) = some c →
        (c.kind = r.kind →
          (s.intake.length + s.owed.length < 8 → Leads (.byteReceived v) s
            { s₀ with filled := s.filled ++ [{ frame := c.frame, mark := .plain }] }) ∧
          (8 ≤ s.intake.length + s.owed.length → Leads (.byteReceived v) s s₀)) ∧
        (c.kind ≠ r.kind →
          RoomChecked (.byteReceived v) s { s₀ with cache := s.cache.filter fun c => c.tag != r.tag } r))

/-- The receiver takes what a sender of Table 8-2 sends: the bytes of a frame with a request kind bring about nothing until
the last, which hands on the frame whole (R146, R147). THE MODEL'S CHOICE (log entry 32): what the receiver holds in HUNT, where
it begins and ends. -/
def Obligations.FramesReadBack : Prop :=
  ∀ r : Request, r.kind.toNat < 128 → r.body.length ≤ 240 →
    (freshReceiver .hunt).takeAll (Frame.wire { kind := r.kind, tag := r.tag, body := r.body }) =
      (freshReceiver .hunt, List.replicate (6 + r.body.length) .nothing ++ [.good r])

/-- FRAME_SENT (R155, R156, R171): at a switch point the pending rate becomes the rate; then the notice that is
pending goes next, else the filled slot first in the sending order, else the transmitter is idle. -/
def Obligations.FrameSentChoosesTheNextFrame : Prop :=
  ∀ s u : State, s.resetLow = false → s.transmitter ≠ .idle →
    ((∃ f, s.transmitter = .notice f) ∨ (∃ f, s.transmitter = .reply { frame := f, mark := .plain }) → u = s) →
    (∀ f, s.transmitter = .reply { frame := f, mark := .switchPoint } →
      ∃ p, s.pendingRate = some p ∧ u = { s with rate := p, pendingRate := none }) →
    (∀ f, s.transmitter ≠ .reply { frame := f, mark := .resetPoint }) →
    (noticePending u = true →
      exec .frameSent s = .next { u with transmitter := .notice (noticeFrame u), announced := eligible u }) ∧
    (noticePending u = false →
      (∀ r rest, u.filled = r :: rest →
        exec .frameSent s =
          .next { u with transmitter := .reply r, filled := rest, announced := u.stillAnnounced }) ∧
      (u.filled = [] → exec .frameSent s = .next { u with transmitter := .idle, announced := u.stillAnnounced }))

/-- What is eligible and what a notice says (R168, R171; the bit set and the body, Table 10-6). -/
def Obligations.NoticeTellsEligibleFlagsAndCounts : Prop :=
  ∀ s : State,
    (noticePending s = true ↔
      (s.restarted = true ∧ s.announced.restarted = false) ∨
      (s.store ≠ [] ∧ s.mask.results = true ∧ s.announced.results = false) ∨
      (s.inbound ≠ [] ∧ s.mask.inbound = true ∧ s.announced.inbound = false) ∨
      ((∃ i p, s.poll i = some p ∧ p.changed = true) ∧ s.mask.polls = true ∧ s.announced.polls = false) ∨
      ((∃ h e, s.entry h = some e ∧ e.changed = true) ∧ s.mask.targets = true ∧ s.announced.targets = false) ∨
      ((∃ b, (s.bus b).pendingCleared + (s.bus b).pendingFaulted + (s.bus b).pendingRecovered ≠ 0) ∧
        s.mask.buses = true ∧ s.announced.buses = false)) ∧
    noticeFrame s =
      { kind := 0xFF#8, tag := 0x00#8
        body := [byteOf (bit (eligible s).restarted + 2 * bit (eligible s).results + 4 * bit (eligible s).inbound
                  + 8 * bit (eligible s).polls + 16 * bit (eligible s).targets + 32 * bit (eligible s).buses),
                 byteOf (s.store.length + s.waitList.length), byteOf s.inbound.length,
                 byteOf (allPolls.countP fun i => (s.poll i).any Poll.changed),
                 byteOf (allHandles.countP fun h => (s.entry h).any Entry.changed),
                 byteOf (allBuses.countP fun b =>
                   (s.bus b).pendingCleared + (s.bus b).pendingFaulted + (s.bus b).pendingRecovered != 0)] }

/-- A frame in progress is sent to its last byte whatever happens meanwhile, and replies join the sending order behind those
owed (R153, R155): no command but the end of a frame and the resets ends one or drops one. -/
def Obligations.FrameInProgressGoesOn : Prop :=
  ∀ (c : Instr) (s t : State), c ≠ .frameSent → c ≠ .powerOn → c ≠ .resetPinAssert → c ≠ .resetPinRelease →
    exec c s = .next t →
      (s.transmitter ≠ .idle → frameSending t.transmitter = frameSending s.transmitter) ∧
      ∃ l, t.owed.map Reply.frame = s.owed.map Reply.frame ++ l

/-- A step keeps only raised flags announced and, unless RESET# is low, neither a reply nor a notice before an idle
transmitter; and every command with RESET# high but the pin's own brings both about (R155, R170, R171). -/
def Obligations.IdleTransmitterOwesNothing : Prop :=
  (∀ s t : State, s.AnnouncedRaised ∧ s.SendsWhatItOwes → step s = .next t → t.AnnouncedRaised ∧ t.SendsWhatItOwes) ∧
  (∀ (c : Instr) (s t : State), s.resetLow = false → c ≠ .resetPinAssert → c ≠ .resetPinRelease → exec c s = .next t →
    t.AnnouncedRaised ∧ t.SendsWhatItOwes)

/-! ### Requests: the checks they share (chapter 9, section 10.7) -/

/-- The generic checks (R162; R175): a kind Table 10-1 does not list is refused UNKNOWN_KIND, and
a body whose length or inner lengths do not fit its kind BAD_FORMAT; the request has left the intake, and nothing else
changes. -/
def Obligations.GenericChecksRefuse : Prop :=
  ∀ (s : State) (tag : Byte) (body : List Byte), body.length ≤ 240 →
    (∀ k : Byte, kindUnknown k = true → s.ready { kind := k, tag := tag, body := body } →
      Replies (.unknownKind k tag body) s s.taking k tag .unknownKind [] .plain) ∧
    (∀ (c : Instr) (k : Kind) (n : Nat), requestOf c = some { kind := k.code, tag := tag, body := body } →
      c.kindFits = true → s.ready { kind := k.code, tag := tag, body := body } → fixedLength k = some n →
      body.length ≠ n → Replies c s s.taking k.code tag .badFormat [] .plain) ∧
    (s.ready { kind := 0x10#8, tag := tag, body := body } → (∀ f : SubmitFields, f.shaped → f.body ≠ body) →
      Replies (.submit tag body) s s.taking 0x10#8 tag .badFormat [] .plain) ∧
    (s.ready { kind := 0x30#8, tag := tag, body := body } → (∀ f : TargetFields, f.shaped → f.body ≠ body) →
      Replies (.targetAdd tag body) s s.taking 0x30#8 tag .badFormat [] .plain) ∧
    (s.ready { kind := 0x40#8, tag := tag, body := body } → (∀ f : PollFields, f.shaped → f.body ≠ body) →
      Replies (.pollSet tag body) s s.taking 0x40#8 tag .badFormat [] .plain) ∧
    (s.ready { kind := 0x51#8, tag := tag, body := body } → (body = [] ∨ 17 < body.length) →
      Replies (.pageSet tag body) s s.taking 0x51#8 tag .badFormat [] .plain)

/-- The bodies of SUBMIT, TARGET_ADD and POLL_SET that are well formed are exactly those laid out as Table 10-4 and R175
say, and each reads back as the fields it was laid out from (sections 10.4 and 10.7). -/
def Obligations.RequestBodiesReadBack : Prop :=
  (∀ (body : List Byte) (f : SubmitFields), submitFields body = some f ↔ f.shaped ∧ f.body = body) ∧
  (∀ (body : List Byte) (f : TargetFields), targetFields body = some f ↔ f.shaped ∧ f.body = body) ∧
  (∀ (body : List Byte) (f : PollFields), pollFields body = some f ↔ f.shaped ∧ f.body = body)

/-- A request that comes as a whole good frame goes through the tag check and the room check (R150, R151) as one that came
byte by byte, and when it comes to an empty intake it is answered as if it stood there. THE MODEL'S CHOICE (log entry 3), by
sections 8.4 and 9.1. -/
def Obligations.ArrivedRequestIsHandled : Prop :=
  ∀ (c : Instr) (r : Request) (s : State), requestOf c = some r → c.kindFits = true → r.body.length ≤ 240 →
    s.resetLow = false → s.intake.head? ≠ some r →
    let checked (v : State) : Prop :=
      (v.intake = [] → v.owed.length < 8 → exec c s = exec c { v with intake := [r] }) ∧
      (v.intake ≠ [] ∨ 8 ≤ v.owed.length → RoomChecked c s v r)
    (r.tag = 0x00#8 → checked s) ∧
    (r.tag ≠ 0x00#8 → (∃ q ∈ s.intake, q.tag = r.tag) →
      Leads c s { s with discards := { s.discards with duplicate := rise 65535 s.discards.duplicate } }) ∧
    (r.tag ≠ 0x00#8 → (∀ q ∈ s.intake, q.tag ≠ r.tag) → (∀ e ∈ s.cache, e.tag ≠ r.tag) → checked s) ∧
    (r.tag ≠ 0x00#8 → (∀ q ∈ s.intake, q.tag ≠ r.tag) →
      ∀ e, (s.cache.find? fun e => e.tag == r.tag) = some e →
        (e.kind = r.kind →
          (s.intake.length + s.owed.length < 8 →
            Leads c s { s with filled := s.filled ++ [{ frame := e.frame, mark := .plain }] }) ∧
          (8 ≤ s.intake.length + s.owed.length → Leads c s s)) ∧
        (e.kind ≠ r.kind → checked { s with cache := s.cache.filter fun e => e.tag != r.tag }))

/-- A refused request changes nothing but the intake, the slots and the cache (R163): for every request kind
and every state. -/
def Obligations.RefusedRequestsChangeNothing : Prop :=
  ∀ (c : Instr) (r : Request) (s t : State), requestOf c = some r → s.ready r → exec c s = .next t →
    ∀ (l : List Reply) (p : Reply), t.owed = l ++ [p] → p.frame.body.head? ≠ some 0x00#8 →
      t = { s with
        intake := s.intake.tail, cache := t.cache, filled := t.filled, transmitter := t.transmitter
        announced := t.announced, freeIndex := t.freeIndex }

/-! ### The requests of the handler, the attention unit and the link -/

/-- HELLO lowers RESTARTED after its reply, HUB_RESET halts the handler and marks its reply the reset point, and
ATTENTION_MASK sets the mask, a flag other than RESTARTED whose member is cleared leaving the announced set (R164,
R165, R169). -/
def Obligations.HandlerRequestsAnswer : Prop :=
  ∀ (s : State) (tag : Byte),
    (s.ready { kind := 0x01#8, tag := tag, body := [] } →
      Replies (.hello tag []) s { s.taking with restarted := false } 0x01#8 tag .ok
        [0xA4#8, 0x01#8, byteOf (bit s.restarted), byteOf 4, byteOf 64, byteOf 48, byteOf 16, byteOf 24, byteOf 16,
         byteOf 8, byteOf 8] .plain) ∧
    (s.ready { kind := 0x02#8, tag := tag, body := [] } →
      Replies (.hubReset tag []) s { s.taking with handler := .halted } 0x02#8 tag .ok [] .resetPoint) ∧
    (∀ m : Byte, s.ready { kind := 0x03#8, tag := tag, body := [m] } →
      (m.toNat < 64 →
        Replies (.attentionMask tag [m]) s
          { s.taking with
            mask := { restarted := m.getLsbD 0, results := m.getLsbD 1, inbound := m.getLsbD 2, polls := m.getLsbD 3,
                      targets := m.getLsbD 4, buses := m.getLsbD 5 }
            announced := { restarted := s.announced.restarted
                           results := s.announced.results && (m.getLsbD 1 || !s.mask.results)
                           inbound := s.announced.inbound && (m.getLsbD 2 || !s.mask.inbound)
                           polls := s.announced.polls && (m.getLsbD 3 || !s.mask.polls)
                           targets := s.announced.targets && (m.getLsbD 4 || !s.mask.targets)
                           buses := s.announced.buses && (m.getLsbD 5 || !s.mask.buses) } }
          0x03#8 tag .ok [m] .plain) ∧
      (64 ≤ m.toNat → Replies (.attentionMask tag [m]) s s.taking 0x03#8 tag .badValue [] .plain))

/-- LINK_CONFIG of one of the four rates makes it pending and its own reply the one switch point, and of any other is
refused BAD_VALUE (R156). -/
def Obligations.LinkConfigSetsThePendingRate : Prop :=
  ∀ (s : State) (tag a b c : Byte), s.ready { kind := 0x04#8, tag := tag, body := [a, b, c] } →
    (∀ r : LinkRate, nat24 a b c = r.bitsPerSecond →
      ∃ u : State, Replies (.linkConfig tag [a, b, c]) s u 0x04#8 tag .ok [a, b, c] .switchPoint ∧
        u = { s.taking with pendingRate := some r, filled := u.filled, transmitter := u.transmitter } ∧
        u.marksOwed .switchPoint = 0 ∧ u.marksOwed .resetPoint = s.marksOwed .resetPoint ∧
        u.filled.map Reply.frame = s.filled.map Reply.frame ∧ frameSending u.transmitter = frameSending s.transmitter) ∧
    ((∀ r : LinkRate, nat24 a b c ≠ r.bitsPerSecond) →
      Replies (.linkConfig tag [a, b, c]) s s.taking 0x04#8 tag .badValue [] .plain)

/-- LINK_STATUS, QUERY and TARGET_QUERY report and change nothing (R157, R23, R104; the bodies,
Table 10-5). QUERY's holder is the one `TicketHolderIsFound` tells of. -/
def Obligations.ReadingRequestsReport : Prop :=
  ∀ (s : State) (tag : Byte),
    (s.ready { kind := 0x05#8, tag := tag, body := [] } →
      Replies (.linkStatus tag []) s s.taking 0x05#8 tag .ok
        (bytes24 s.rate.bitsPerSecond ++ bytes24 (match s.pendingRate with
            | some r => r.bitsPerSecond
            | none => 0)
          ++ bytes16 s.discards.gap ++ bytes16 s.discards.length ++ bytes16 s.discards.check ++ bytes16 s.discards.kind
          ++ bytes16 s.discards.duplicate
          ++ [byteOf s.taking.intake.length, byteOf (1 + s.taking.intake.length + s.owed.length)]) .plain) ∧
    (∀ h l : Byte, s.ready { kind := 0x12#8, tag := tag, body := [h, l] } →
      (nat16 h l = 0 → Replies (.query tag [h, l]) s s.taking 0x12#8 tag .badValue [] .plain) ∧
      (nat16 h l ≠ 0 →
        (∀ b t before after, s.findTicket (nat16 h l) = .queued b t →
          (s.bus b).subList t.cls = before ++ t :: after → (∀ u ∈ before, u.hasTicket (nat16 h l) = false) →
          Replies (.query tag [h, l]) s s.taking 0x12#8 tag .ok
            [if t.notBefore = none then 0x01#8 else 0x02#8, byteOf (before.length + 1)] .plain) ∧
        (∀ b, s.findTicket (nat16 h l) = .active b →
          Replies (.query tag [h, l]) s s.taking 0x12#8 tag .ok [0x03#8, 0x00#8] .plain) ∧
        (s.findTicket (nat16 h l) = .decided →
          Replies (.query tag [h, l]) s s.taking 0x12#8 tag .ok [0x04#8, 0x00#8] .plain) ∧
        (s.findTicket (nat16 h l) = .stored →
          Replies (.query tag [h, l]) s s.taking 0x12#8 tag .ok [0x05#8, 0x00#8] .plain) ∧
        (s.findTicket (nat16 h l) = .nowhere →
          Replies (.query tag [h, l]) s s.taking 0x12#8 tag .unknownTicket [] .plain))) ∧
    (∀ n : Byte, s.ready { kind := 0x33#8, tag := tag, body := [n] } →
      (64 ≤ n.toNat → Replies (.targetQuery tag [n]) s s.taking 0x33#8 tag .badValue [] .plain) ∧
      (∀ h : Handle, n.toNat = h.val →
        (s.entry h = none → Replies (.targetQuery tag [n]) s s.taking 0x33#8 tag .ok [n, 0x00#8] .plain) ∧
        (∀ e, s.entry h = some e →
          Replies (.targetQuery tag [n]) s s.taking 0x33#8 tag .ok
            ([n, (match e.state with
                | .new => 0x01#8
                | .present => 0x02#8
                | .suspect => 0x03#8
                | .quarantined => 0x04#8), byteOf e.bus.val, byteOf e.address.toNat, byteOf e.attempts]
              ++ bytes16 e.retryGap ++ [byteOf e.threshold] ++ bytes16 e.probeInterval
              ++ [byteOf e.refusals, byteOf (s.inFlight h), byteOf (s.pollRefs h)]
              ++ (match e.probe with
                  | .none => [0x00#8]
                  | .timing r => 0x01#8 :: bytes16 r
                  | .due => [0x02#8]
                  | .issued => [0x03#8])) .plain)))

/-- The holder of a ticket is found where it is (sections 1.10 and 1.12, Table 1-4). -/
def Obligations.TicketHolderIsFound : Prop :=
  ∀ (s : State) (k : Nat),
    match s.findTicket k with
    | .queued b t => t ∈ (s.bus b).queue ∧ t.ticket? = some k
    | .active b => ∃ t, (s.bus b).engine.record? = some t ∧ t.ticket? = some k
    | .decided => ∃ d ∈ s.waitList, d.record.ticket? = some k
    | .stored => ∃ c ∈ s.store, c.ticket = k
    | .nowhere => k ∉ s.ticketsInUse

/-! ### Decisions, returns and selection (chapters 1, 4, 5 and 6) -/

/-- A decided HOST record goes to the result store, or to the slot wait list while the store is full or others wait; an
orphan's decision goes nowhere (R18, R76, R80, R81). -/
def Obligations.DecisionsGoToTheStore : Prop :=
  ∀ (s : State) (t : Txn) (o : TxnOutcome),
    (∀ k, t.origin = .host k →
      (s.store.length < 24 → s.waitList = [] →
        s.conclude t o = { s with store := s.store ++
          [{ ticket := k, handle := t.handle, outcome := o, attemptsUsed := t.attemptsUsed,
             lostArbitrations := t.lostArbitrations, segmentReached := t.progress.segmentsDone,
             bytesDone := t.progress.bytesDone, readData := t.progress.readBytes }] }) ∧
      (24 ≤ s.store.length ∨ s.waitList ≠ [] →
        s.conclude t o = { s with waitList := s.waitList ++
          [{ record := { t with notBefore := none, cancelPending := false }, outcome := o }] })) ∧
    (∀ i, t.origin = .poll i true → s.conclude t o = s)

/-- An instance decided OK, R119: the masked values are compared, and last value, last outcome, fail count and the
changed-poll set follow the table. An instance decided with any other outcome, R120. Nothing else of the hub changes. -/
def Obligations.InstanceOutcomesReachThePoll : Prop :=
  ∀ (s : State) (t : Txn) (o : TxnOutcome) (i : PollIndex) (p : Poll),
    t.origin = .poll i false → s.poll i = some p →
    ∃ q : Poll, s.conclude t o = s.setPoll i (some q) ∧
      q = { p with lastValue := q.lastValue, lastOutcome := some o, failCount := q.failCount, changed := q.changed } ∧
      (o = .ok → q.failCount = 0 ∧
        (p.lastValue = none ∨ p.policy = .every →
          q.lastValue = some t.progress.readBytes ∧ q.changed = true) ∧
        (∀ v, p.lastValue = some v → p.policy = .change →
          (List.zipWith (· &&& ·) p.mask v ≠ List.zipWith (· &&& ·) p.mask t.progress.readBytes →
            q.lastValue = some t.progress.readBytes ∧ q.changed = true) ∧
          (List.zipWith (· &&& ·) p.mask v = List.zipWith (· &&& ·) p.mask t.progress.readBytes →
            q.lastValue = some v ∧ q.changed = (p.changed || decide (p.lastOutcome ≠ some .ok))))) ∧
      (o ≠ .ok → q.failCount = rise 255 p.failCount ∧ q.lastValue = p.lastValue ∧
        q.changed = (p.changed || decide (p.lastOutcome ≠ some o)))

/-- A return is tested for cancel pending, a quarantined target, an orphaned record and a passed deadline, in that
order; a record that none decides is placed. A refused address takes an attempt and sends the record behind its class
to wait for the retry gap, a lost arbitration sends it in front; the last attempt is decided NO_TARGET, the eighth
loss LOST_BUS (R9, R10, R17, R20, R24, R25). THE MODEL'S CHOICE: a deadline has passed in its own millisecond too (log
entry 7). -/
def Obligations.ReturnsAreDecidedOrPlaced : Prop :=
  (∀ (s : State) (t : Txn) (place : Placement),
     let placed : State := s.setBus t.bus (match place with
       | .tailWaiting n => atTail (s.bus t.bus) { t with notBefore := some n }
       | .headQueued => atHead (s.bus t.bus) { t with notBefore := none })
     (∀ k, t.origin = .host k →
       (t.cancelPending = true → s.giveBack t place = s.conclude t.discarded .cancelled) ∧
       (t.cancelPending = false → s.quarantined t.handle = true →
         s.giveBack t place = s.conclude t.discarded .targetOut) ∧
       (t.cancelPending = false → s.quarantined t.handle = false →
         (∀ d, t.deadline = some d → d ≤ s.now → s.giveBack t place = s.conclude t.discarded .expired) ∧
         ((∀ d, t.deadline = some d → s.now < d) → s.giveBack t place = placed))) ∧
     (∀ i orphaned, t.origin = .poll i orphaned →
       (s.quarantined t.handle = true ∨ orphaned = true → s.giveBack t place = s) ∧
       (s.quarantined t.handle = false → orphaned = false → s.giveBack t place = placed))) ∧
  (∀ (s : State) (t : Txn),
     (∀ e, s.entry t.handle = some e → 1 < t.attemptsLeft →
       s.reportRefusal t =
         s.giveBack { t with attemptsLeft := t.attemptsLeft - 1 } (.tailWaiting (s.time / 1000 + e.retryGap))) ∧
     (t.attemptsLeft ≤ 1 → s.reportRefusal t = s.conclude { t with attemptsLeft := 0 } .noTarget) ∧
     (t.lostArbitrations < 7 →
       s.reportLoss t = s.giveBack { t with lostArbitrations := t.lostArbitrations + 1 } .headQueued) ∧
     (7 ≤ t.lostArbitrations →
       s.reportLoss t = s.conclude { t with lostArbitrations := t.lostArbitrations + 1 } .lostBus))

/-- Selection (R12): only an IDLE engine that holds no work; the due probe of lowest handle first, then the
first QUEUED record, URGENT before ROUTINE unless the urgent run is 8 or more; WAITING records keep their places. -/
def Obligations.SelectionChoosesTheNextWork : Prop :=
  ∀ (s : State) (b : BusId),
    ((s.bus b).engine ≠ .idle none → s.select b = s) ∧
    ((s.bus b).engine = .idle none →
      (∀ h e, s.entry h = some e → e.bus = b → e.probe = .due →
        (∀ k f, k < h → s.entry k = some f → f.bus = b → f.probe ≠ .due) →
        s.select b = (s.setEntry h (some { e with probe := .issued })).setBus b
          { s.bus b with engine := .idle (some (.probe h)) }) ∧
      ((∀ h e, s.entry h = some e → e.bus = b → e.probe ≠ .due) →
        (∀ before t after, (s.bus b).urgent = before ++ t :: after → t.notBefore = none →
          (∀ u ∈ before, u.notBefore ≠ none) →
          ((s.bus b).urgentRun < 8 ∨ ∀ u ∈ (s.bus b).routine, u.notBefore ≠ none) →
          s.select b = s.setBus b
            { s.bus b with
              urgent := before ++ after
              engine := .idle (some (.record { t with progress := Progress.zero })) }) ∧
        (∀ before t after, (s.bus b).routine = before ++ t :: after → t.notBefore = none →
          (∀ u ∈ before, u.notBefore ≠ none) →
          (8 ≤ (s.bus b).urgentRun ∨ ∀ u ∈ (s.bus b).urgent, u.notBefore ≠ none) →
          s.select b = s.setBus b
            { s.bus b with
              routine := before ++ after
              engine := .idle (some (.record { t with progress := Progress.zero })) }) ∧
        ((∀ u ∈ (s.bus b).urgent ++ (s.bus b).routine, u.notBefore ≠ none) → s.select b = s)))

/-- An address result of a record moves its entry (R94, R95, R96), a QUARANTINED one being moved by probes
alone: by the results of a probe (R99, R100) and a probe given up (R101), and of those only the probe the entry
waits on, from the engine of its bus. -/
def Obligations.AddressAndProbeResultsMoveTheEntry : Prop :=
  (∀ (s : State) (h : Handle) (e : Entry), s.entry h = some e →
     (e.state = .quarantined → s.addressAcknowledged h = s ∧ s.addressRefused h = s) ∧
     (e.state ≠ .quarantined →
       s.addressAcknowledged h = s.setEntry h
         (some { e with state := .present, refusals := 0, changed := e.changed || decide (e.state ≠ .present) }) ∧
       (rise 255 e.refusals < e.threshold →
         s.addressRefused h = s.setEntry h
           (some { e with state := .suspect, refusals := rise 255 e.refusals
                          changed := e.changed || decide (e.state ≠ .suspect) })) ∧
       (e.threshold ≤ rise 255 e.refusals → s.addressRefused h = s.quarantine h e (rise 255 e.refusals)))) ∧
  (∀ (s : State) (b : BusId) (h : Handle),
     ((∀ e, s.entry h = some e → e.probe ≠ .issued ∨ e.bus ≠ b) →
       s.giveUpProbe b h = s ∧ ∀ ack, s.probeResult b h ack = s) ∧
     (∀ e, s.entry h = some e → e.probe = .issued → e.bus = b →
       s.giveUpProbe b h = s.setEntry h (some { e with probe := .due }) ∧
       s.probeResult b h .acknowledged = s.release h e ∧
       s.probeResult b h .refused =
         s.setEntry h (some { e with refusals := rise 255 e.refusals, probe := .timing e.probeInterval })))

/-- What a quarantine takes with it and what its end gives back (R24, R96, R99, R102, R122,
R123): the entry, the queued records of its bus that name it, its polls; nothing else. -/
def Obligations.QuarantineBeginsAndEnds : Prop :=
  ∀ (s : State) (h : Handle) (e : Entry), s.entry h = some e →
    (∀ n, ∃ t : State, s.quarantine h e n = t ∧
      t = { s with directory := t.directory, buses := t.buses, polls := t.polls, store := t.store, waitList := t.waitList } ∧
      (∀ k, t.entry k = if k = h then some { e with state := .quarantined, refusals := n,
                                                    probe := .timing e.probeInterval, changed := true }
                        else s.entry k) ∧
      (∀ b, t.bus b = if b = e.bus then keeping (s.bus b) (fun r => decide (r.handle ≠ h)) else s.bus b) ∧
      (∀ i, t.poll i = (s.poll i).map fun p =>
        match p.state with
        | .active _ => if p.handle = h then { p with state := .paused, changed := true } else p
        | .paused => p) ∧
      (let claimed := (s.bus e.bus).queue.filter fun r => decide (r.handle = h) && r.isHost
       t.store = (s.concludeEach claimed .targetOut).store ∧
       t.waitList = (s.concludeEach claimed .targetOut).waitList)) ∧
    (∃ t : State, s.release h e = t ∧
      t = { s with directory := t.directory, polls := t.polls } ∧
      (∀ k, t.entry k = if k = h then some { e with state := .present, refusals := 0, probe := .none, changed := true }
                        else s.entry k) ∧
      (∀ i, t.poll i = (s.poll i).map fun p =>
        match p.state with
        | .active _ => p
        | .paused => if p.handle = h then { p with state := .active p.period, changed := true } else p))

/-- The ticket issued is the first value from the next-ticket counter upward, 65535 being followed by 1, that is not in use
(R6). -/
def Obligations.TicketIssuedIsTheFirstFree : Prop :=
  ∀ s : State, 1 ≤ s.nextTicket → s.nextTicket ≤ 65535 → s.ticketsInUse.length < 65535 →
    s.issueTicket ∉ s.ticketsInUse ∧ 1 ≤ s.issueTicket ∧ s.issueTicket ≤ 65535 ∧
    ∃ n, s.issueTicket = (fun k => if k = 65535 then 1 else k + 1)^[n] s.nextTicket ∧
      ∀ m < n, (fun k => if k = 65535 then 1 else k + 1)^[m] s.nextTicket ∈ s.ticketsInUse

/-- What the passing of time does (R32, R37, R38, R44, R63, R65, R97, R115, R148): the time base, the free and stuck timers, the
wait for clock, a start hold or a low half, the probe timers, the period timers and the gap timer; nothing else. As a start
hold ends the address byte begins (R46, R53). THE MODEL'S CHOICES: counts stop at their ends until their happening is taken (log
entry 6), a start hold or a low half runs out with any time that passes (log entry 13), the address of an entry that has none to
give is a free value (log entry 26), and the wait for clock counts in DRIVING and CLEARING from the engine's last step (log entry 23). -/
def Obligations.TimePassesForEveryTimer : Prop :=
  ∀ (s : State) (us : Nat),
    let ms := (s.time + us) / 1000 - s.time / 1000
    ∃ t : State, s.pass us = t ∧
      t = { s with time := s.time + us, receiver := t.receiver, buses := t.buses, directory := t.directory
                   polls := t.polls } ∧
      t.receiver = (if s.receiver.state = .hunt then s.receiver
        else { s.receiver with gapTimer := s.receiver.gapTimer + ms }) ∧
      (∀ h, t.entry h = (s.entry h).map fun e =>
        match e.probe with
        | .timing r => { e with probe := .timing (r - ms) }
        | _ => e) ∧
      (∀ i, t.poll i = (s.poll i).map fun p =>
        match p.state with
        | .active r => { p with state := .active (r - ms) }
        | .paused => p) ∧
      (∀ b, let x := s.bus b
        ∃ byte, (∀ w, x.engine = .driving .start w → s.addresses b w byte) ∧
          let halves : Bus := match x.engine with
            | .driving .start w => inAddress x w byte
            | .clearing kept n .starting =>
              { x with engine := .clearing kept n .stopping, clockOut := .released, dataOut := .released }
            | .driving _ _ => { x with clockOut := .released }
            | .clearing _ _ _ => { x with clockOut := .released }
            | _ => x
          t.bus b = { (if 0 < us then halves else x) with
            stretchTimer := if x.engine.value = 0x03#8 ∨ x.engine.value = 0x05#8
              then min x.stretchLimit (x.stretchTimer + ms) else x.stretchTimer
            monitor := { x.monitor with
              freeTimer := if x.monitor.bothHigh = true
                then min x.monitor.freeTime (x.monitor.freeTimer + us) else x.monitor.freeTimer
              stuckTimer := if x.monitor.bothHigh = false ∧ (x.engine.value = 0x02#8 ∨ x.engine.value = 0x04#8)
                then min x.monitor.stuckLimit (x.monitor.stuckTimer + ms) else x.monitor.stuckTimer } })

/-! ### The requests of the pool and the result store (chapters 1 and 4) -/

/-- SUBMIT that passes every check (R14, R15, R8): the ticket is issued, the record is filled, joins the
tail of its class, and selection is taken. -/
def Obligations.SubmitQueuesTheTransaction : Prop :=
  ∀ (s : State) (tag : Byte) (f : SubmitFields) (h : Handle) (cls : TxnClass) (segments : List Segment) (e : Entry),
    s.ready { kind := 0x10#8, tag := tag, body := f.body } → f.shaped → f.means h cls segments →
    s.entry h = some e → e.state ≠ .quarantined → (s.bus e.bus).engine ≠ .off → (s.bus e.bus).engine ≠ .faulted →
    (s.bus e.bus).records.length < 16 → s.recordsTaken < 48 →
    let record : Txn :=
      { origin := .host s.issueTicket, handle := h, bus := e.bus, cls := cls, segments := segments
        deadline := f.deadline.map fun d => s.time / 1000 + d
        attemptsLeft := (match f.attempts with
          | some a => a
          | none => e.attempts)
        attemptsUsed := 0, lostArbitrations := 0, notBefore := none, cancelPending := false
        progress := { segmentInHand := 0, byteInHand := 0, segmentsDone := 0, bytesDone := 0, readBytes := [] } }
    Replies (.submit tag f.body) s
      (({ s.taking with nextTicket := if s.issueTicket < 65535 then s.issueTicket + 1 else 1 }.setBus e.bus
        (atTail (s.bus e.bus) record)).select e.bus)
      0x10#8 tag .ok (bytes16 s.issueTicket) .plain

/-- A SUBMIT that fails a check is refused with the first code whose condition holds, in the order of R14 (section 1.7). -/
def Obligations.SubmitIsRefusedInOrder : Prop :=
  ∀ (s : State) (tag : Byte) (f : SubmitFields), s.ready { kind := 0x10#8, tag := tag, body := f.body } → f.shaped →
    let refused (code : ReplyCode) : Prop := Replies (.submit tag f.body) s s.taking 0x10#8 tag code [] .plain
    ((∀ h cls segments, ¬ f.means h cls segments) → refused .badValue) ∧
    (∀ h cls segments, f.means h cls segments →
      (s.entry h = none → refused .unknownHandle) ∧
      (∀ e, s.entry h = some e →
        (e.state = .quarantined → refused .quarantined) ∧
        (e.state ≠ .quarantined →
          ((s.bus e.bus).engine = .off ∨ (s.bus e.bus).engine = .faulted → refused .busOff) ∧
          ((s.bus e.bus).engine ≠ .off → (s.bus e.bus).engine ≠ .faulted →
            (16 ≤ (s.bus e.bus).records.length → refused .queueFull) ∧
            ((s.bus e.bus).records.length < 16 → 48 ≤ s.recordsTaken → refused .poolEmpty)))))

/-- CANCEL by the ticket's holder (R19): a queued record is decided CANCELLED, an ACTIVE one is cancel pending, a
decided or stored one is too late, and none is unknown. FLUSH decides every queued HOST record of its bus CANCELLED, in queue
order, and keeps the polls' (R22). -/
def Obligations.CancelAndFlushDecideRecords : Prop :=
  (∀ (s : State) (tag high low : Byte), s.ready { kind := 0x11#8, tag := tag, body := [high, low] } →
     let k := nat16 high low
     let replies (u : State) (code : ReplyCode) (fields : List Byte) : Prop :=
       Replies (.cancel tag [high, low]) s u 0x11#8 tag code fields .plain
     (k = 0 → replies s.taking .badValue []) ∧
     (k ≠ 0 →
       (∀ b t, s.findTicket k = .queued b t →
         replies ((s.taking.setBus b (keeping (s.bus b) fun u => decide (u.ticket? ≠ some k))).conclude t.discarded .cancelled)
           .ok [0x01#8]) ∧
       (∀ b, s.findTicket k = .active b →
         ∃ e : Engine, replies (s.taking.setBus b { s.bus b with engine := e }) .ok [0x03#8] ∧
           (∀ t, (s.bus b).engine = .idle (some (.record t)) →
             e = .idle (some (.record { t with cancelPending := true }))) ∧
           (∀ p t, (s.bus b).engine = .driving p (.record t) →
             e = .driving p (.record { t with cancelPending := true })) ∧
           (∀ t n g, (s.bus b).engine = .clearing (some t) n g →
             e = .clearing (some { t with cancelPending := true }) n g)) ∧
       (s.findTicket k = .decided ∨ s.findTicket k = .stored → replies s.taking .tooLate []) ∧
       (s.findTicket k = .nowhere → replies s.taking .unknownTicket []))) ∧
  (∀ (s : State) (tag n : Byte), s.ready { kind := 0x13#8, tag := tag, body := [n] } →
     (4 ≤ n.toNat → Replies (.flush tag [n]) s s.taking 0x13#8 tag .badValue [] .plain) ∧
     (∀ b : BusId, n.toNat = b.val →
       Replies (.flush tag [n]) s
         ((s.taking.setBus b (keeping (s.bus b) fun t => !t.isHost)).concludeEach
           ((s.bus b).urgent.filter Txn.isHost ++ (s.bus b).routine.filter Txn.isHost) .cancelled)
         0x13#8 tag .ok
         [byteOf (((s.bus b).urgent.filter Txn.isHost).length + ((s.bus b).routine.filter Txn.isHost).length)] .plain))

/-- FETCH takes completion records from the head of the store, at most max and within 236 bytes, and one waiting record moves
in for each taken (R83, R84, R85; the bodies, Tables 10-5 and 10-6). -/
def Obligations.FetchTakesFromTheHeadOfTheStore : Prop :=
  ∀ (s : State) (tag max : Byte), s.ready { kind := 0x14#8, tag := tag, body := [max] } →
    (max.toNat = 0 ∨ 8 < max.toNat → Replies (.fetch tag [max]) s s.taking 0x14#8 tag .badValue [] .plain) ∧
    (∀ taken stay : List Completion, 1 ≤ max.toNat → max.toNat ≤ 8 → s.WaitersAreHost → s.store = taken ++ stay →
      taken.length ≤ max.toNat → (taken.map fun c => 9 + c.readData.length).sum ≤ 236 →
      (taken.length = max.toNat ∨
        ∀ c ∈ stay.head?, 236 < (taken.map fun c => 9 + c.readData.length).sum + (9 + c.readData.length)) →
      let moved := s.waitList.take taken.length
      ∃ arrived : List Completion,
        List.Forall₂ (fun (d : Decided) (c : Completion) => d.record.origin = .host c.ticket ∧
          c = { ticket := c.ticket, handle := d.record.handle, outcome := d.outcome
                attemptsUsed := d.record.attemptsUsed, lostArbitrations := d.record.lostArbitrations
                segmentReached := d.record.progress.segmentsDone, bytesDone := d.record.progress.bytesDone
                readData := d.record.progress.readBytes }) moved arrived ∧
        Replies (.fetch tag [max]) s
          { s.taking with store := stay ++ arrived, waitList := s.waitList.drop taken.length } 0x14#8 tag .ok
          ([byteOf taken.length, byteOf (s.store.length + s.waitList.length - taken.length)]
            ++ taken.flatMap fun c =>
              bytes16 c.ticket ++ [byteOf c.handle.val, c.outcome.value, byteOf c.attemptsUsed,
                byteOf c.lostArbitrations, byteOf c.segmentReached, byteOf c.bytesDone, byteOf c.readData.length]
                ++ c.readData) .plain)

/-! ### The bus requests (chapter 3) -/

/-- BUS_CONFIG (R70, R71, R41): refused out of range or while the engine is busy; else the settings are taken,
bus-free is raised at once when the count has come to the new free time, and the engine goes by the enable field. THE MODEL'S
CHOICES: a free timer that stands beyond the new free time, bus-free raised already, is cut to it (log entry 33); a BUS_CONFIG
that disables takes the free time and stuck limit of its fields as well (log entry 34). -/
def Obligations.BusConfigSetsAndEnables : Prop :=
  ∀ (s : State) (tag bus enable speed free stretch stuck : Byte),
    let body := [bus, enable, speed, free, stretch, stuck]
    s.ready { kind := 0x20#8, tag := tag, body := body } →
    (4 ≤ bus.toNat ∨ 2 ≤ enable.toNat ∨ 3 ≤ speed.toNat ∨ free.toNat = 0 ∨ stretch.toNat = 0 ∨ 100 < stretch.toNat ∨
        stuck.toNat < 5 →
      Replies (.busConfig tag body) s s.taking 0x20#8 tag .badValue [] .plain) ∧
    (∀ (b : BusId) (sp : SpeedClass), bus.toNat = b.val → enable.toNat < 2 →
      (speed = match sp with
        | .standard => 0x00#8
        | .fast => 0x01#8
        | .fastPlus => 0x02#8) →
      1 ≤ free.toNat → 1 ≤ stretch.toNat → stretch.toNat ≤ 100 → 5 ≤ stuck.toNat →
      let x := s.bus b
      let m : Monitor := { x.monitor with freeTime := 10 * free.toNat, stuckLimit := stuck.toNat }
      let m' : Monitor := if m.bothHigh = true ∧ m.freeRaised = false ∧ m.freeTime ≤ m.freeTimer then lineFreed m
        else { m with freeTimer := min m.freeTime m.freeTimer }
      let y (e : Engine) : Bus :=
        { atRest x e m' with speed := sp, stretchLimit := stretch.toNat }
      (x.engine ≠ .off → x.engine ≠ .idle none ∨ x.queue ≠ [] →
        Replies (.busConfig tag body) s s.taking 0x20#8 tag .busy [] .plain) ∧
      (x.engine = .off ∨ (x.engine = .idle none ∧ x.queue = []) →
        (enable = 0x00#8 → Replies (.busConfig tag body) s (s.taking.setBus b (y .off)) 0x20#8 tag .ok [] .plain) ∧
        (enable = 0x01#8 →
          (x.engine = .off → m'.line = .held →
            Replies (.busConfig tag body) s (s.taking.setBus b (y (.occupied none))) 0x20#8 tag .ok [] .plain) ∧
          (x.engine = .idle none ∨ m'.line = .free →
            Replies (.busConfig tag body) s ((s.taking.setBus b (y (.idle none))).select b) 0x20#8 tag .ok [] .plain))))

/-- BUS_STATUS reports the bus and then lowers its event counts (R74; the body, Table 10-5). BUS_RESET (R69, Table
3-4): refused OFF; else both lines are released, CLEARING begins, the urgent run count is 0, a record held is
ABANDONED, a probe whose acknowledge bit is not taken is given up, and a reception is discarded. -/
def Obligations.BusStatusAndBusReset : Prop :=
  (∀ (s : State) (tag n : Byte), s.ready { kind := 0x21#8, tag := tag, body := [n] } →
     (4 ≤ n.toNat → Replies (.busStatus tag [n]) s s.taking 0x21#8 tag .badValue [] .plain) ∧
     (∀ b : BusId, n.toNat = b.val →
       let x := s.bus b
       Replies (.busStatus tag [n]) s
         (s.taking.setBus b { x with pendingCleared := 0, pendingFaulted := 0, pendingRecovered := 0 }) 0x21#8 tag .ok
         ([(match x.engine with
             | .off => 0x00#8
             | .idle _ => 0x01#8
             | .occupied _ => 0x02#8
             | .driving _ _ => 0x03#8
             | .answering _ => 0x04#8
             | .clearing _ _ _ => 0x05#8
             | .faulted => 0x06#8),
           (match x.engine with
             | .driving .start _ => 0x01#8
             | .driving .address _ => 0x02#8
             | .driving .send _ => 0x03#8
             | .driving (.receive _) _ => 0x04#8
             | .driving .restart _ => 0x05#8
             | .driving (.stop _) _ => 0x06#8
             | .answering r => if r.kind = .write then 0x07#8 else 0x08#8
             | _ => 0x00#8),
           byteOf x.urgent.length, byteOf x.routine.length]
           ++ bytes16 x.okCompletions ++ bytes16 x.arbitrationLosses ++ bytes16 x.stalls ++ bytes16 x.clearings
           ++ bytes16 x.faults ++ [byteOf x.pendingCleared, byteOf x.pendingFaulted, byteOf x.pendingRecovered]) .plain)) ∧
  (∀ (s : State) (tag n : Byte), s.ready { kind := 0x22#8, tag := tag, body := [n] } →
     (4 ≤ n.toNat → Replies (.busReset tag [n]) s s.taking 0x22#8 tag .badValue [] .plain) ∧
     (∀ b : BusId, n.toNat = b.val →
       ((s.bus b).engine = .off → Replies (.busReset tag [n]) s s.taking 0x22#8 tag .busOff [] .plain) ∧
       ((s.bus b).engine ≠ .off →
         let v := s.taking.setBus b { clearingBegun (s.bus b) none with urgentRun := 0 }
         (∀ t, (s.bus b).engine.record? = some t →
           Replies (.busReset tag [n]) s (v.conclude t .abandoned) 0x22#8 tag .ok [] .plain) ∧
         (∀ h, (s.bus b).engine.awaitsProbe h = true →
           Replies (.busReset tag [n]) s (v.giveUpProbe b h) 0x22#8 tag .ok [] .plain) ∧
         ((s.bus b).engine.record? = none → (∀ h, (s.bus b).engine.awaitsProbe h = false) →
           Replies (.busReset tag [n]) s v 0x22#8 tag .ok [] .plain))))

/-! ### The requests of the target directory (chapter 5) -/

/-- TARGET_ADD (R92, R93): refused with the first code whose condition holds; else the UNUSED entry of lowest
handle is NEW with the terms given or their defaults. -/
def Obligations.TargetAddTakesTheLowestHandle : Prop :=
  ∀ (s : State) (tag : Byte) (f : TargetFields), s.ready { kind := 0x30#8, tag := tag, body := f.body } → f.shaped →
    let refused (code : ReplyCode) : Prop := Replies (.targetAdd tag f.body) s s.taking 0x30#8 tag code [] .plain
    ((∀ b a, ¬ f.means b a) → refused .badValue) ∧
    (∀ b a, f.means b a →
      ((∀ h, s.entry h ≠ none) → refused .tableFull) ∧
      (∀ h, s.entry h = none → (∀ k, k < h → s.entry k ≠ none) →
        ((∃ k e, s.entry k = some e ∧ e.bus = b ∧ e.address = a) → refused .duplicate) ∧
        ((∀ k e, s.entry k = some e → ¬ (e.bus = b ∧ e.address = a)) →
          ((s.bus b).ownAddress = some a → refused .conflict) ∧
          ((s.bus b).ownAddress ≠ some a →
            Replies (.targetAdd tag f.body) s
              (s.taking.setEntry h (some
                { state := .new, bus := b, address := a, attempts := f.attempts.getD 3
                  retryGap := f.retryGap.getD 10, threshold := f.threshold.getD 4
                  probeInterval := f.probeInterval.getD 1000, refusals := 0, probe := .none, changed := false }))
              0x30#8 tag .ok [byteOf h.val] .plain))))

/-- TARGET_REMOVE frees an entry that nothing uses, and TARGET_RELEASE ends a quarantine and answers the entry's state
(R102, R103). -/
def Obligations.TargetsAreRemovedAndReleased : Prop :=
  ∀ (s : State) (tag n : Byte),
    (s.ready { kind := 0x31#8, tag := tag, body := [n] } →
      (64 ≤ n.toNat → Replies (.targetRemove tag [n]) s s.taking 0x31#8 tag .badValue [] .plain) ∧
      (∀ h : Handle, n.toNat = h.val →
        (s.entry h = none → Replies (.targetRemove tag [n]) s s.taking 0x31#8 tag .unknownHandle [] .plain) ∧
        (s.entry h ≠ none →
          ((∃ t ∈ s.records, t.handle = h) ∨ (∃ i p, s.poll i = some p ∧ p.handle = h) →
            Replies (.targetRemove tag [n]) s s.taking 0x31#8 tag .inUse [] .plain) ∧
          ((∀ t ∈ s.records, t.handle ≠ h) → (∀ i p, s.poll i = some p → p.handle ≠ h) →
            Replies (.targetRemove tag [n]) s (s.taking.setEntry h none) 0x31#8 tag .ok [] .plain)))) ∧
    (s.ready { kind := 0x32#8, tag := tag, body := [n] } →
      (64 ≤ n.toNat → Replies (.targetRelease tag [n]) s s.taking 0x32#8 tag .badValue [] .plain) ∧
      (∀ h : Handle, n.toNat = h.val →
        (s.entry h = none → Replies (.targetRelease tag [n]) s s.taking 0x32#8 tag .ok [0x00#8] .plain) ∧
        (∀ e, s.entry h = some e →
          (e.state = .quarantined →
            Replies (.targetRelease tag [n]) s (s.taking.release h e) 0x32#8 tag .ok [0x02#8] .plain) ∧
          (e.state = .new → Replies (.targetRelease tag [n]) s s.taking 0x32#8 tag .ok [0x01#8] .plain) ∧
          (e.state = .present → Replies (.targetRelease tag [n]) s s.taking 0x32#8 tag .ok [0x02#8] .plain) ∧
          (e.state = .suspect → Replies (.targetRelease tag [n]) s s.taking 0x32#8 tag .ok [0x03#8] .plain))))

/-- TARGET_CHANGES and POLL_READ report the members of their change sets in ascending order, at most max, which then
leave the set (R105, R106, R125, R126; the entries, Table 10-6). -/
def Obligations.ChangeSetsAreReadInOrder : Prop :=
  ∀ (s : State) (tag max : Byte),
    (s.ready { kind := 0x34#8, tag := tag, body := [max] } →
      (max.toNat = 0 ∨ 64 < max.toNat →
        Replies (.targetChanges tag [max]) s s.taking 0x34#8 tag .badValue [] .plain) ∧
      (∀ taken left : List Handle, 1 ≤ max.toNat → max.toNat ≤ 64 →
        taken ++ left = (List.finRange 64).filter (fun h => (s.entry h).any Entry.changed) →
        taken.length ≤ max.toNat → (taken.length = max.toNat ∨ left = []) →
        ∃ u : State, u = { s.taking with directory := u.directory } ∧
          (∀ h, u.entry h =
            if h ∈ taken then (s.entry h).map fun e => { e with changed := false } else s.entry h) ∧
          Replies (.targetChanges tag [max]) s u 0x34#8 tag .ok
            ([byteOf taken.length, byteOf left.length] ++ taken.flatMap fun h =>
              [byteOf h.val, entryStateField ((s.entry h).map Entry.state)]) .plain)) ∧
    (s.ready { kind := 0x42#8, tag := tag, body := [max] } →
      (max.toNat = 0 ∨ 16 < max.toNat →
        Replies (.pollRead tag [max]) s s.taking 0x42#8 tag .badValue [] .plain) ∧
      (∀ taken left : List PollIndex, 1 ≤ max.toNat → max.toNat ≤ 16 →
        taken ++ left = (List.finRange 16).filter (fun i => (s.poll i).any Poll.changed) →
        taken.length ≤ max.toNat → (taken.length = max.toNat ∨ left = []) →
        ∃ u : State, u = { s.taking with polls := u.polls } ∧
          (∀ i, u.poll i = if i ∈ taken then (s.poll i).map fun p => { p with changed := false } else s.poll i) ∧
          Replies (.pollRead tag [max]) s u 0x42#8 tag .ok
            ([byteOf taken.length, byteOf left.length] ++ taken.flatMap fun i =>
              match s.poll i with
              | none => []
              | some p =>
                [byteOf i.val,
                 (match p.state with
                  | .active _ => 0x01#8
                  | .paused => 0x02#8),
                 (match p.lastOutcome with
                  | some o => o.value
                  | none => 0xFF#8),
                 byteOf p.lateCount, byteOf p.failCount, byteOf (p.lastValue.getD []).length] ++ p.lastValue.getD [])
            .plain))

/-! ### The requests of the polls and the responder (chapters 6 and 7) -/

/-- POLL_SET (R113, R114): refused with the first code whose condition holds; else the poll is ACTIVE with a full
period, or PAUSED while its target is QUARANTINED, and reserves a record. -/
def Obligations.PollSetStartsThePoll : Prop :=
  ∀ (s : State) (tag : Byte) (f : PollFields), s.ready { kind := 0x40#8, tag := tag, body := f.body } → f.shaped →
    let refused (code : ReplyCode) : Prop := Replies (.pollSet tag f.body) s s.taking 0x40#8 tag code [] .plain
    ((∀ i h cls policy, ¬ f.means i h cls policy) → refused .badValue) ∧
    (∀ i h cls policy, f.means i h cls policy →
      (s.poll i ≠ none → refused .inUse) ∧
      (s.poll i = none →
        (s.entry h = none → refused .unknownHandle) ∧
        (∀ e, s.entry h = some e →
          (48 ≤ s.recordsTaken → refused .poolEmpty) ∧
          (s.recordsTaken < 48 →
            ∃ st : PollState, ∃ field : Byte,
              (e.state = .quarantined → st = .paused ∧ field = 0x02#8) ∧
              (e.state ≠ .quarantined → st = .active f.period ∧ field = 0x01#8) ∧
              let u := s.taking.setPoll i (some
                { state := st, handle := h, writeBytes := f.writeBytes, readLength := f.readLength, mask := f.mask
                  period := f.period, policy := policy, cls := cls, lastValue := none, lastOutcome := none
                  lateCount := 0, failCount := 0, changed := false })
              Replies (.pollSet tag f.body) s u 0x40#8 tag .ok [field] .plain ∧
              u.recordsTaken = s.recordsTaken + 1))))

/-- POLL_OFF (R124, R25): the poll is OFF; its queued record leaves its queue, and one in an engine
goes on as an orphan. -/
def Obligations.PollOffReleasesTheRecord : Prop :=
  ∀ (s : State) (tag n : Byte), s.ready { kind := 0x41#8, tag := tag, body := [n] } →
    (16 ≤ n.toNat → Replies (.pollOff tag [n]) s s.taking 0x41#8 tag .badValue [] .plain) ∧
    (∀ i : PollIndex, n.toNat = i.val →
      (s.poll i = none → Replies (.pollOff tag [n]) s s.taking 0x41#8 tag .ok [] .plain) ∧
      (s.poll i ≠ none →
        ∃ u : State, Replies (.pollOff tag [n]) s u 0x41#8 tag .ok [] .plain ∧
          u = { s.taking with polls := u.polls, buses := u.buses } ∧
          (∀ j, u.poll j = if j = i then none else s.poll j) ∧
          (∀ b, u.bus b = { keeping (s.bus b) (fun t => decide (t.origin ≠ .poll i false)) with
            engine := (u.bus b).engine }) ∧
          (∀ b, ((∀ t, (s.bus b).engine.record? = some t → t.origin ≠ .poll i false) →
              (u.bus b).engine = (s.bus b).engine) ∧
            (∀ t, t.origin = .poll i false →
              ((s.bus b).engine = .idle (some (.record t)) →
                (u.bus b).engine = .idle (some (.record { t with origin := .poll i true }))) ∧
              (∀ p, (s.bus b).engine = .driving p (.record t) →
                (u.bus b).engine = .driving p (.record { t with origin := .poll i true })) ∧
              (∀ k g, (s.bus b).engine = .clearing (some t) k g →
                (u.bus b).engine = .clearing (some { t with origin := .poll i true }) k g)))))

/-- LISTEN_SET and PAGE_SET set what a bus answers to and with (R130, R131); LISTEN_SET is refused for an
address of the directory and while a reception is open. -/
def Obligations.ListenAndPageSettingsAreTaken : Prop :=
  ∀ (s : State) (tag bus : Byte),
    (∀ own broadcast : Byte, s.ready { kind := 0x50#8, tag := tag, body := [bus, own, broadcast] } →
      (4 ≤ bus.toNat ∨ (1 ≤ own.toNat ∧ own.toNat < 8) ∨ 119 < own.toNat ∨ 2 ≤ broadcast.toNat →
        Replies (.listenSet tag [bus, own, broadcast]) s s.taking 0x50#8 tag .badValue [] .plain) ∧
      (∀ (b : BusId) (address : Option BusAddress), bus.toNat = b.val → broadcast.toNat < 2 →
        (own = 0x00#8 ∧ address = none) ∨
          (8 ≤ own.toNat ∧ own.toNat ≤ 119 ∧ ∃ a : BusAddress, address = some a ∧ a.toNat = own.toNat) →
        ((∃ h e, s.entry h = some e ∧ e.bus = b ∧ some e.address = address) →
          Replies (.listenSet tag [bus, own, broadcast]) s s.taking 0x50#8 tag .conflict [] .plain) ∧
        ((∀ h e, s.entry h = some e → e.bus = b → some e.address ≠ address) →
          ((∃ r, (s.bus b).engine = .answering r) →
            Replies (.listenSet tag [bus, own, broadcast]) s s.taking 0x50#8 tag .busy [] .plain) ∧
          ((∀ r, (s.bus b).engine ≠ .answering r) →
            Replies (.listenSet tag [bus, own, broadcast]) s
              (s.taking.setBus b
                { s.bus b with ownAddress := address, broadcastAccept := decide (broadcast = 0x01#8) })
              0x50#8 tag .ok [] .plain)))) ∧
    (∀ page : List Byte, page.length ≤ 16 → s.ready { kind := 0x51#8, tag := tag, body := bus :: page } →
      (4 ≤ bus.toNat → Replies (.pageSet tag (bus :: page)) s s.taking 0x51#8 tag .badValue [] .plain) ∧
      (∀ b : BusId, bus.toNat = b.val →
        Replies (.pageSet tag (bus :: page)) s (s.taking.setBus b { s.bus b with page := page }) 0x51#8 tag .ok []
          .plain))

/-- INBOUND_READ, R142: a max outside 1 to 8 is refused; else records are taken from the head of the queue, fewer than max
before each and within 236 bytes; the reply carries the count, the count left and the records (Table 10-6); and a frame whose
reply is still in the reply cache is answered from it and removes nothing. That a frame may arrive whole is THE MODEL'S
CHOICE (log entry 3). -/
def Obligations.InboundReadTakesFromTheHead : Prop :=
  ∀ (s : State) (tag max : Byte),
    (s.ready { kind := 0x52#8, tag := tag, body := [max] } →
      (max.toNat = 0 ∨ 8 < max.toNat → Replies (.inboundRead tag [max]) s s.taking 0x52#8 tag .badValue [] .plain) ∧
      (∀ taken stay : List Inbound, 1 ≤ max.toNat → max.toNat ≤ 8 → s.inbound = taken ++ stay →
        taken.length ≤ max.toNat → (taken.map fun r => 4 + r.data.length).sum ≤ 236 →
        (taken.length = max.toNat ∨
          ∀ r ∈ stay.head?, 236 < (taken.map fun r => 4 + r.data.length).sum + (4 + r.data.length)) →
        Replies (.inboundRead tag [max]) s { s.taking with inbound := stay } 0x52#8 tag .ok
          ([byteOf taken.length, byteOf stay.length] ++ taken.flatMap fun r =>
            [byteOf r.bus.val,
             byteOf (bit (decide (r.kind = .read)) + 2 * bit r.broadcast + 4 * bit r.truncated),
             (match r.endedBy with
              | .stop => 0x00#8
              | .restart => 0x01#8
              | .abort => 0x02#8),
             byteOf r.count] ++ r.data) .plain)) ∧
    (∀ f : Frame, s.resetLow = false → s.intake = [] → s.owed.length < 8 → tag ≠ 0x00#8 →
      s.cache.find? (fun c => c.tag == tag) = some { tag := tag, kind := 0x52#8, frame := f } →
      Leads (.inboundRead tag [max]) s { s with filled := s.filled ++ [{ frame := f, mark := .plain }] })

/-! ### Timers (chapters 1, 5 and 6). That the time base comes to the timer's moment is log entry 5 -/

/-- DEADLINE_EXPIRY decides a queued record EXPIRED, and RETRY_GAP_END makes a WAITING record QUEUED in its place and has
selection taken (R11, R16). THE MODEL'S CHOICE (log entry 2): a record found nowhere, or with no such timer, is let
be. -/
def Obligations.RecordTimersRunOut : Prop :=
  ∀ s : State, s.resetLow = false →
    (∀ k, 1 ≤ k → k ≤ 65535 →
      (∀ b t, s.findTicket k = .queued b t →
        (t.deadline = none → Leads (.deadlineExpiry k) s s) ∧
        (∀ d, t.deadline = some d →
          let v := s.pass ((d - s.time / 1000) * 1000)
          Leads (.deadlineExpiry k) s
            ((v.setBus b (keeping (v.bus b) fun u => decide (u.ticket? ≠ some k))).conclude t.discarded .expired))) ∧
      (∀ b t, s.findTicket k = .active b → (s.bus b).engine.record? = some t →
        (t.deadline = none → Leads (.deadlineExpiry k) s s) ∧
        (∀ d, t.deadline = some d → Leads (.deadlineExpiry k) s (s.pass ((d - s.time / 1000) * 1000)))) ∧
      (s.findTicket k = .decided ∨ s.findTicket k = .stored ∨ s.findTicket k = .nowhere →
        Leads (.deadlineExpiry k) s s)) ∧
    (∀ n : RecordName,
      ((∀ b, ∀ t ∈ (s.bus b).queue, t.named n = false) → Leads (.retryGapEnd n) s s) ∧
      (∀ b before t after, (s.bus b).queue = before ++ t :: after → t.named n = true →
        (∀ u ∈ before, u.named n = false) → (∀ a, a < b → ∀ u ∈ (s.bus a).queue, u.named n = false) →
        (t.notBefore = none → Leads (.retryGapEnd n) s s) ∧
        (∀ due, t.notBefore = some due →
          let v := s.pass ((due - s.time / 1000) * 1000)
          let x := v.bus b
          let awake : List Txn → List Txn := List.map fun u => if u.named n = true then { u with notBefore := none } else u
          Leads (.retryGapEnd n) s
            ((v.setBus b { x with urgent := awake x.urgent, routine := awake x.routine }).select b))))

/-- PROBE_TIMER_EXPIRY makes the probe due and has selection taken (R97); POLL_PERIOD_EXPIRY starts the next
period and queues an instance, filled afresh, or counts a late one (R115, R116, R117, R5). THE MODEL'S CHOICES: the room is
R7's, where R118's last sentence differs (log entry 31); a timer that does not run is let be (log entry 2). -/
def Obligations.ProbeAndPollTimersRunOut : Prop :=
  ∀ s : State, s.resetLow = false →
    (∀ h : Handle,
      (∀ e r, s.entry h = some e → e.probe = .timing r →
        Leads (.probeTimerExpiry h) s
          (((s.pass (r * 1000)).setEntry h (some { e with probe := .due })).select e.bus)) ∧
      ((∀ e r, s.entry h = some e → e.probe ≠ .timing r) → Leads (.probeTimerExpiry h) s s)) ∧
    (∀ i : PollIndex,
      ((∀ p r, s.poll i = some p → p.state ≠ .active r) → Leads (.pollPeriodExpiry i) s s) ∧
      (∀ p r e, s.poll i = some p → p.state = .active r → s.entry p.handle = some e →
        let v := s.pass (r * 1000)
        let queues : Prop :=
          (∀ t ∈ s.records, t.origin ≠ .poll i false) ∧
          ((s.bus e.bus).engine.value = 0x01#8 ∨ (s.bus e.bus).engine.value = 0x02#8 ∨
            (s.bus e.bus).engine.value = 0x03#8 ∨ (s.bus e.bus).engine.value = 0x04#8) ∧
          (s.bus e.bus).records.length < 16
        let started : Poll := { p with state := .active p.period }
        (queues →
          Leads (.pollPeriodExpiry i) s
            (((v.setPoll i (some started)).setBus e.bus (atTail (v.bus e.bus)
              { origin := .poll i false, handle := p.handle, bus := e.bus, cls := p.cls
                segments := (if p.writeBytes = [] then [] else [.write p.writeBytes]) ++ [.read p.readLength]
                deadline := none, attemptsLeft := e.attempts, attemptsUsed := 0, lostArbitrations := 0
                notBefore := none, cancelPending := false
                progress := { segmentInHand := 0, byteInHand := 0, segmentsDone := 0, bytesDone := 0
                              readBytes := [] } })).select e.bus)) ∧
        (¬ queues →
          Leads (.pollPeriodExpiry i) s
            (v.setPoll i (some { started with lateCount := rise 255 p.lateCount })))))

/-! ### The line and the engines (chapters 2, 3 and 7) -/

/-- START_SEEN by the engine's state (R28, R36, R44, R59, R60, R62, R138, Table 3-7):
a start not yet made is given back, a drive is lost, a reception ends RESTART, and a listening engine hears the address byte
that follows. What is no condition is an edge of the clock line (R37, R38). In DRIVING a fall ends the start hold, or clock is
pulled low with it and the next bit of the byte sent is placed (R32, R44, R46, R48), and a rise ends the wait for clock (R63). In
ANSWERING a fall ends an acknowledge (R133, R135) and READ_OUT places its next bit (R136). Data that the hub holds low is sensed
low (R27). THE MODEL'S CHOICES: the row carries the edges too (log entry 24), of which a byte's own commands hold the one that
ends them (log entry 12); while the hub holds data low in STOP, for an acknowledge given or in the start of a clearing nothing is
seen, and on a FREE line no clock can rise (log entry 2); in ADDRESS and SEND a start is a loss whatever bit was placed last, and in
ANSWERING it ends the reception whatever data was last told to do (log entry 2); in phase START a start is a loss, and a condition takes a clearing's low half as over (log entry 13); the address of an entry that has none to give is a
free value (log entry 26). -/
def Obligations.StartSeenActsByTheEngine : Prop :=
  ∀ (s : State) (b : BusId), s.resetLow = false →
    let x := s.bus b
    let m := lineStarted x.monitor
    (∀ change : SensedChange, change = .dataFell ∨ (x.monitor.line = .free ∧ ∃ data, change = .clockFell data) →
      (x.engine = .off ∨ x.engine = .faulted → Leads (.startSeen b change) s (s.setBus b { x with monitor := m })) ∧
      (∀ kept n stage, x.engine = .clearing kept n stage → stage ≠ .starting →
        Leads (.startSeen b change) s (s.setBus b { x with monitor := m, clockOut := .released })) ∧
      ((∃ kept n, x.engine = .clearing kept n .starting) → Leads (.startSeen b change) s s) ∧
      (x.engine = .idle none ∨ (∃ hearing, x.engine = .occupied hearing) →
        Leads (.startSeen b change) s (s.setBus b (atRest x (.occupied (some [])) m))) ∧
      (∀ w, x.engine = .idle (some w) →
        Leads (.startSeen b change) s ((s.setBus b (atRest x (.occupied (some [])) m)).unmade b w)) ∧
      (∀ p w, x.engine = .driving p w →
        ((∃ r, p = .stop r) ∨ p = .receive (some .acknowledged) → Leads (.startSeen b change) s s) ∧
        ((∀ r, p ≠ .stop r) → p ≠ .receive (some .acknowledged) →
          Leads (.startSeen b change) s ((s.setBus b (lossCounted x (some []) m)).lost b w))) ∧
      (∀ r, x.engine = .answering r →
        Leads (.startSeen b change) s
          { s.setBus b (atRest x (.occupied (some [])) m) with inbound := s.inbound ++ [inboundOf b r .restart] })) ∧
    (x.monitor.line = .held → ∀ dataHigh : Bool,
      (x.engine.value ≠ 0x03#8 → x.engine.value ≠ 0x04#8 →
        Leads (.startSeen b (.clockFell dataHigh)) s (s.setBus b { x with monitor := clockFell x.monitor })) ∧
      (∀ w, x.engine = .driving .start w → ∃ byte, s.addresses b w byte ∧
        Leads (.startSeen b (.clockFell dataHigh)) s (s.setBus b
          { inAddress x w byte with stretchTimer := 0, monitor := clockFell x.monitor })) ∧
      ((x.engine.value = 0x03#8 ∧ x.engine.phaseField ≠ 0x01#8) ∨ x.engine.value = 0x04#8 →
        let places (data : Drive) (placed : Nat) : Prop :=
          Leads (.startSeen b (.clockFell dataHigh)) s (s.setBus b
            { x with dataOut := data, bitsPlaced := placed, monitor := clockFell x.monitor
                     clockOut := if x.engine.value = 0x03#8 then .low else x.clockOut
                     stretchTimer := if x.engine.value = 0x03#8 then 0 else x.stretchTimer })
        (x.sending = none → places (if x.engine.value = 0x03#8 then x.dataOut else .released) x.bitsPlaced) ∧
        (∀ v, x.sending = some v →
          (∀ place : Fin 8, x.bitsPlaced = place.val →
            places (bitOnData (v.getLsbD (7 - place.val))) (place.val + 1)) ∧
          (8 ≤ x.bitsPlaced → places .released 9))) ∧
      (let risen : Monitor := if x.monitor.bothHigh = true then x.monitor
          else { clockFell x.monitor with bothHigh := dataHigh && decide (x.dataOut = .released) }
       (x.engine.value = 0x03#8 →
         Leads (.startSeen b (.clockHigh dataHigh)) s (s.setBus b
           { x with clockOut := .released, stretchTimer := 0, monitor := risen })) ∧
       (x.engine.value ≠ 0x03#8 → (∀ kept n, x.engine ≠ .clearing kept n .waiting) →
         Leads (.startSeen b (.clockHigh dataHigh)) s (s.setBus b { x with monitor := risen })))) ∧
    (x.monitor.line = .free →
      Leads (.startSeen b (.clockHigh false)) s s ∧
      ((∀ kept n, x.engine ≠ .clearing kept n .waiting) → Leads (.startSeen b (.clockHigh true)) s s))

/-- STOP_SEEN by the engine's state (R36, R59, R61, R137, Table 3-7): a drive is lost, a reception ends STOP, and the
engine that was OCCUPIED, driving or answering is IDLE. BUS_FREE (R37, R61, R68, R137), once for each interval in
which both lines are high: the free time has then passed, an OCCUPIED engine is IDLE, a reception ends STOP, and a
FAULTED engine recovers. THE MODEL'S CHOICES: the time base moves on to that moment (log entry 5), with a low line last
sensed by the full free time (log entry 24); STOP_SEEN on a FREE line or while the hub holds data low in STOP, for an acknowledge
given or in a clearing's start, and BUS_FREE already raised or in DRIVING, change nothing, in ADDRESS and SEND a stop is a loss
whatever bit was placed last, and a reception ends whatever data was last told to do (log entry 2); in phase START a stop is a loss, and a condition takes a clearing's low half as over (log entry
13). -/
def Obligations.StopSeenAndBusFreeActByTheEngine : Prop :=
  (∀ (s : State) (b : BusId), s.resetLow = false →
     let x := s.bus b
     let m := lineStopped x.monitor
     (x.monitor.line = .free → Leads (.stopSeen b) s s) ∧
     (x.monitor.line = .held →
       (x.engine = .off ∨ x.engine.value = 0x01#8 ∨ x.engine = .faulted →
         Leads (.stopSeen b) s (s.setBus b { x with monitor := m })) ∧
       (∀ kept n stage, x.engine = .clearing kept n stage → stage ≠ .starting →
         Leads (.stopSeen b) s (s.setBus b { x with monitor := m, clockOut := .released })) ∧
       ((∃ kept n, x.engine = .clearing kept n .starting) → Leads (.stopSeen b) s s) ∧
       (∀ hearing, x.engine = .occupied hearing →
         Leads (.stopSeen b) s ((s.setBus b { x with monitor := m }).idleAgain b)) ∧
       (∀ p w, x.engine = .driving p w →
         ((∃ r, p = .stop r) ∨ p = .receive (some .acknowledged) → Leads (.stopSeen b) s s) ∧
         ((∀ r, p ≠ .stop r) → p ≠ .receive (some .acknowledged) →
           Leads (.stopSeen b) s (((s.setBus b (lossCounted x none m)).lost b w).idleAgain b))) ∧
       (∀ r, x.engine = .answering r →
         Leads (.stopSeen b) s
           ({ s.setBus b { x with monitor := m } with inbound := s.inbound ++ [inboundOf b r .stop] }.idleAgain b)))) ∧
  (∀ (s : State) (b : BusId), s.resetLow = false →
     let v := s.pass ((s.bus b).monitor.freeTime - (s.bus b).monitor.freeTimer)
     let e := (s.bus b).engine
     let x := v.bus b
     let m := lineFreed x.monitor
     ((s.bus b).monitor.freeRaised = true ∨ e.value = 0x03#8 → Leads (.busFree b) s s) ∧
     ((s.bus b).monitor.freeRaised = false →
       (e = .off ∨ e.value = 0x01#8 ∨ e.value = 0x05#8 →
         Leads (.busFree b) s (v.setBus b { x with monitor := m })) ∧
       (e.value = 0x02#8 → Leads (.busFree b) s ((v.setBus b { x with monitor := m }).idleAgain b)) ∧
       (e = .faulted →
         Leads (.busFree b) s
           ((v.setBus b { x with monitor := m, pendingRecovered := rise 255 x.pendingRecovered }).idleAgain b)) ∧
       (∀ r, e = .answering r →
         Leads (.busFree b) s
           ({ v.setBus b { x with monitor := m } with inbound := s.inbound ++ [inboundOf b r .stop] }.idleAgain b))))

/-- STUCK, STALL, CLEARED and CLEARING_FAILED (R38, R61, R139, R63 to R68), and the clearing sequence (R65): a line held low
brings the engine to CLEARING, a record is kept through it, each time clock is sensed high with data low a pulse is made, at
most nine, with data high the start is, its stop following with the time that passes, and its end is IDLE or FAULTED. THE
MODEL'S CHOICES: the times passed (log entries 5 and 23); STUCK with both lines last sensed high (log entry 24); CLEARED tells
the rest of the sequence, but not after the ninth pulse has failed, and the failed stage stands until CLEARING_FAILED (log entry
14); the line after a failure is HELD (log entry 15). -/
def Obligations.ClearingBeginsAndEnds : Prop :=
  ∀ (s : State) (b : BusId), s.resetLow = false →
    let x := s.bus b
    let v := s.pass ((x.monitor.stuckLimit - x.monitor.stuckTimer) * 1000)
    let w := s.pass ((x.stretchLimit - x.stretchTimer) * 1000)
    let stalling (kept : Option Txn) : State :=
      w.setBus b (clearingBegun
        { w.bus b with stalls := rise 65535 x.stalls, monitor := clockFell (w.bus b).monitor } kept)
    (∀ hearing, x.engine = .occupied hearing →
      Leads (.stuck b) s
        (v.setBus b (clearingBegun { v.bus b with monitor := clockFell (v.bus b).monitor } none))) ∧
    (∀ r, x.engine = .answering r →
      Leads (.stuck b) s
        { v.setBus b (clearingBegun { v.bus b with monitor := clockFell (v.bus b).monitor } none) with
          inbound := s.inbound ++ [inboundOf b r .abort] }) ∧
    (∀ p t, x.engine = .driving p (.record t) →
      ((∀ r, p ≠ .stop r) → Leads (.stall b) s (stalling (some t))) ∧
      (∀ r, p = .stop r → Leads (.stall b) s ((stalling none).reportStop b r (.record t)))) ∧
    (∀ p h, x.engine = .driving p (.probe h) →
      ((∀ r, p ≠ .stop r) → Leads (.stall b) s ((stalling none).giveUpProbe b h)) ∧
      (∀ r, p = .stop r → Leads (.stall b) s (stalling none))) ∧
    (∀ kept n, x.engine = .clearing kept n .waiting →
      (x.dataOut = .released → Leads (.startSeen b (.clockHigh true)) s (s.setBus b
        { x with engine := .clearing kept n .starting, monitor := lineStarted x.monitor, stretchTimer := 0
                 clockOut := .released, dataOut := .low })) ∧
      (∀ dataHigh, x.monitor.line = .held → dataHigh = false ∨ x.dataOut = .low →
        (n < 9 → Leads (.startSeen b (.clockHigh dataHigh)) s (s.setBus b
          { x with engine := .clearing kept (n + 1) .waiting, monitor := clockFell x.monitor, stretchTimer := 0
                   clockOut := .low })) ∧
        (9 ≤ n → Leads (.startSeen b (.clockHigh dataHigh)) s (s.setBus b
          { x with engine := .clearing kept n .exhausted, monitor := clockFell x.monitor, stretchTimer := 0
                   clockOut := .released })))) ∧
    (∀ kept n stage, x.engine = .clearing kept n stage →
      let ended : State :=
        s.setBus b { atRest x (.idle none) (lineStopped x.monitor) with pendingCleared := rise 255 x.pendingCleared }
      let u : State := if stage = .exhausted then s else w
      let failed : State :=
        u.setBus b { atRest (u.bus b) .faulted (lineStarted (u.bus b).monitor) with
          faults := rise 65535 x.faults, pendingFaulted := rise 255 x.pendingFaulted }
      (stage = .exhausted → Leads (.cleared b) s s) ∧
      (stage ≠ .exhausted →
        (kept = none → Leads (.cleared b) s (ended.select b)) ∧
        (∀ t, kept = some t → Leads (.cleared b) s ((ended.conclude t .stalled).select b))) ∧
      (kept = none → Leads (.clearingFailed b) s failed) ∧
      (∀ t, kept = some t → Leads (.clearingFailed b) s (failed.conclude t .busFault)))

/-- START_MADE and REPEATED_START_MADE (R44, R13, R39, R50, R30, R46, R90): the engine drives its start with data low, its line
HELD, and a record's start counts in the urgent run; a line already HELD gives the work back. After a repeated start it sends
its entry's address with the direction of the next segment. THE MODEL'S CHOICES: REPEATED_START_MADE holds the start hold and the
fall of clock after it (log entry 12); the address of an entry that has none to give is a free value (log entry 26). The address
byte after a start begins as its hold ends, in `TimePassesForEveryTimer` and `StartSeenActsByTheEngine`. -/
def Obligations.StartsAreMade : Prop :=
  ∀ (s : State) (b : BusId), s.resetLow = false →
    let x := s.bus b
    (∀ w, x.engine = .idle (some w) → x.monitor.line = .free →
      ∃ run, Leads (.startMade b) s (s.setBus b
          (driveOn { x with monitor := lineStarted x.monitor, urgentRun := run } .start w none)) ∧
        (∀ t, w = .record t → (t.cls = .urgent → run = rise 255 x.urgentRun) ∧ (t.cls = .routine → run = 0)) ∧
        (∀ h, w = .probe h → run = x.urgentRun)) ∧
    (∀ w, x.engine = .idle (some w) → x.monitor.line = .held →
      Leads (.startMade b) s ((s.setBus b (atRest x (.occupied (some [])) x.monitor)).unmade b w)) ∧
    (∀ t, x.engine = .driving .restart (.record t) →
      let t' : Txn := { t with progress := { t.progress with
        segmentInHand := t.progress.segmentInHand + 1, byteInHand := 0 } }
      ∃ byte, s.addresses b (.record t') byte ∧
        Leads (.repeatedStartMade b) s (s.setBus b
          (driveOn { x with monitor := lineStarted x.monitor } .address (.record t') (some byte))))

/-- ADDRESS_BYTE_ANSWERED (R46, R47, R55, R77): for the first segment the attempt is counted and
the directory told; the record then goes to its segment's phase, a write with the byte in hand to send, or to STOP when it is
refused or cancel pending. PROBE_ANSWERED (R53): the directory is told, and the engine goes on to the stop. THE MODEL'S
CHOICES: the acknowledge bit is taken in phase START too (log entry 13), and its command holds the fall of clock that ends it
(log entry 12). -/
def Obligations.AddressBytesAreAnswered : Prop :=
  (∀ (s : State) (b : BusId) (p : DrivePhase) (t : Txn), s.resetLow = false →
     (s.bus b).engine = .driving p (.record t) → p = .start ∨ p = .address →
     let first : Prop := t.progress.segmentInHand = 0
     ∃ t' : Txn,
       (first → t.isHost = true → t' = { t with attemptsUsed := t.attemptsUsed + 1 }) ∧
       (¬ first ∨ t.isHost = false → t' = t) ∧
       (∃ (q : DrivePhase) (sent : Option Byte),
         (t.cancelPending = true → q = .stop (.decision .cancelled) ∧ sent = none) ∧
         (t.cancelPending = false →
           (∀ bytes, t.segments[t.progress.segmentInHand]? = some (.write bytes) →
             q = .send ∧ sent = bytes[t.progress.byteInHand]?) ∧
           (∀ n, t.segments[t.progress.segmentInHand]? = some (.read n) → q = .receive none ∧ sent = none)) ∧
         (first → let v := s.addressAcknowledged t.handle
           Leads (.addressByteAnswered b .acknowledged) s
             (v.setBus b (driveOn (v.bus b) q (.record t') sent))) ∧
         (¬ first →
           Leads (.addressByteAnswered b .acknowledged) s
             (s.setBus b (driveOn (s.bus b) q (.record t') sent)))) ∧
       (first → let v := s.addressRefused t.handle
         Leads (.addressByteAnswered b .refused) s
           (v.setBus b (driveOn (v.bus b) (.stop .addressRefused) (.record t') none))) ∧
       (¬ first →
         Leads (.addressByteAnswered b .refused) s
           (s.setBus b (driveOn (s.bus b) (.stop (.decision .dataRefused)) (.record t') none)))) ∧
  (∀ (s : State) (b : BusId) (p : DrivePhase) (h : Handle) (ack : AckBit), s.resetLow = false →
     (s.bus b).engine = .driving p (.probe h) → p = .start ∨ p = .address →
     let v := s.probeResult b h ack
     Leads (.probeAnswered b ack) s
       (v.setBus b (driveOn (v.bus b) (.stop .probeDone) (.probe h) none)))

/-- WRITE_BYTE_ANSWERED and READ_BYTE_TAKEN (R48, R49, R55): a byte done counts and the next write byte is in hand, a byte
read is gathered, acknowledged or refused, and the transfer goes on when that bit is over; the segment's last byte leads to a
repeated start or the stop, a refused write byte and cancel pending to the stop. THE MODEL'S CHOICES: READ_BYTE_TAKEN tells the
byte and the end of its acknowledge bit apart (log entry 18), and each command holds the fall of clock that ends it (log entry
12). -/
def Obligations.BytesMoveOnTheTransfer : Prop :=
  ∀ (s : State) (b : BusId) (t : Txn), s.resetLow = false →
    let x := s.bus b
    let one : Progress :=
      { t.progress with byteInHand := t.progress.byteInHand + 1, bytesDone := t.progress.bytesDone + 1 }
    let ends (q : DrivePhase) : Prop :=
      (t.cancelPending = true → q = .stop (.decision .cancelled)) ∧
      (t.cancelPending = false →
        (t.progress.segmentInHand + 1 < t.segments.length → q = .restart) ∧
        (t.segments.length ≤ t.progress.segmentInHand + 1 → q = .stop (.decision .ok)))
    (∀ bytes, x.engine = .driving .send (.record t) → t.segments[t.progress.segmentInHand]? = some (.write bytes) →
      Leads (.writeByteAnswered b .refused) s
        (s.setBus b (driveOn x (.stop (.decision .dataRefused)) (.record t) none)) ∧
      (∀ next, bytes[t.progress.byteInHand + 1]? = some next →
        Leads (.writeByteAnswered b .acknowledged) s (s.setBus b
          (if t.cancelPending = true then
            driveOn x (.stop (.decision .cancelled)) (.record { t with progress := one }) none
          else driveOn x .send (.record { t with progress := one }) (some next)))) ∧
      (bytes[t.progress.byteInHand + 1]? = none → ∃ q, ends q ∧
        Leads (.writeByteAnswered b .acknowledged) s (s.setBus b (driveOn x q
          (.record { t with progress := { one with segmentsDone := t.progress.segmentsDone + 1 } })
          none)))) ∧
    (∀ n, t.segments[t.progress.segmentInHand]? = some (.read n) →
      (∀ value, x.engine = .driving (.receive none) (.record t) →
        let refused : Prop := n ≤ t.progress.byteInHand + 1 ∨ t.cancelPending = true
        let t' : Txn := { t with progress := { one with readBytes := t.progress.readBytes ++ [value] } }
        (refused → Leads (.readByteTaken b (.complete value)) s
          (s.setBus b (driveOn x (.receive (some .refused)) (.record t') none))) ∧
        (¬ refused → Leads (.readByteTaken b (.complete value)) s
          (s.setBus b (driveOn x (.receive (some .acknowledged)) (.record t') none)))) ∧
      (x.engine = .driving (.receive (some .acknowledged)) (.record t) →
        Leads (.readByteTaken b .answered) s
          (s.setBus b (driveOn x (.receive none) (.record t) none))) ∧
      (x.engine = .driving (.receive (some .refused)) (.record t) →
        (t.progress.byteInHand < n → Leads (.readByteTaken b .answered) s
          (s.setBus b (driveOn x (.stop (.decision .cancelled)) (.record t) none))) ∧
        (n ≤ t.progress.byteInHand → ∃ q, ends q ∧
          Leads (.readByteTaken b .answered) s (s.setBus b (driveOn x q
            (.record { t with progress := { t.progress with segmentsDone := t.progress.segmentsDone + 1 } })
            none)))))

/-- STOP_RELEASED (R51, R64): the result is reported, and the engine is IDLE with its line FREE, or OCCUPIED when
another party holds data low. -/
def Obligations.StopReportsItsResult : Prop :=
  ∀ (s : State) (b : BusId) (r : StopResult) (w : Work), s.resetLow = false →
    (s.bus b).engine = .driving (.stop r) w →
    let x := s.bus b
    let idle : State := s.setBus b (atRest x (.idle none) (lineStopped x.monitor))
    let occupied : State := s.setBus b (atRest x (.occupied none) (clockFell x.monitor))
    Leads (.stopReleased b true) s ((idle.reportStop b r w).select b) ∧
    Leads (.stopReleased b false) s (occupied.reportStop b r w) ∧
    (∀ v : State,
      (∀ h, v.reportStop b r (.probe h) = v) ∧
      (∀ t, r = .addressRefused → v.reportStop b r (.record t) = v.reportRefusal t) ∧
      (∀ t, r = .decision .ok → v.reportStop b r (.record t) =
        (v.setBus b { v.bus b with okCompletions := rise 65535 (v.bus b).okCompletions }).conclude t .ok) ∧
      (∀ t o, r = .decision o → o ≠ .ok → v.reportStop b r (.record t) = v.conclude t o))

/-- ARBITRATION_LOST (R33, R57, R58, R59): the loss is counted and reported, both lines are released, and the
engine is OCCUPIED, hearing the address byte it lost in, whose first bits are those it sent and the one it lost, or that
follows a foreign start, or IDLE after a foreign stop. Only a bit sent as 1 is an arbitration point. THE MODEL'S CHOICES: a
loss in phase START, at a bit of the address byte that then begins (log entry 13), of an entry that has none to give a free value
(log entry 26); the loss at a not-acknowledge, which comes after its byte is gathered, and the foreign
conditions (log entry 18), in ADDRESS and SEND whatever bit was placed last, as a bit is lost at the place told (log entry 2);
where the engine has no arbitration point nothing happens (log entry 2). -/
def Obligations.ArbitrationIsLost : Prop :=
  ∀ (s : State) (b : BusId) (p : DrivePhase) (w : Work), s.resetLow = false →
    (s.bus b).engine = .driving p w →
    let x := s.bus b
    let lostHere (cause : LossCause) (hearing : Option (List Bool)) : Prop :=
      Leads (.arbitrationLost b cause) s ((s.setBus b (lossCounted x hearing (clockFell x.monitor))).lost b w)
    let loses (v : Byte) (hearing : Fin 8 → Option (List Bool)) : Prop := ∀ place : Fin 8,
      (v.getLsbD (7 - place.val) = true → lostHere (.bitLow place) (hearing place)) ∧
      (v.getLsbD (7 - place.val) = false → Leads (.arbitrationLost b (.bitLow place)) s s)
    let winners (v : Byte) (place : Fin 8) : Option (List Bool) :=
      some ((List.range place.val).map (fun i => v.getLsbD (7 - i)) ++ [false])
    (p = .start → ∃ v, s.addresses b w v ∧ loses v (winners v)) ∧
    (p = .address → ∀ v, x.sending = some v → loses v (winners v)) ∧
    (p = .send → ∀ v, x.sending = some v → loses v fun _ => none) ∧
    (∀ place : Fin 8, p ≠ .start → x.sending = none ∨ (p ≠ .address ∧ p ≠ .send) →
      Leads (.arbitrationLost b (.bitLow place)) s s) ∧
    (p = .restart → lostHere .restartLow none) ∧
    (p ≠ .restart → Leads (.arbitrationLost b .restartLow) s s) ∧
    (p = .receive (some .refused) → lostHere .notAcknowledge none) ∧
    (p ≠ .receive (some .refused) → Leads (.arbitrationLost b .notAcknowledge) s s) ∧
    ((∀ r, p ≠ .stop r) → p ≠ .receive (some .acknowledged) →
      Leads (.arbitrationLost b .startSeen) s ((s.setBus b (lossCounted x (some []) (lineStarted x.monitor))).lost b w) ∧
      Leads (.arbitrationLost b .stopSeen) s
        (((s.setBus b (lossCounted x none (lineStopped x.monitor))).lost b w).idleAgain b)) ∧
    ((∃ r, p = .stop r) ∨ p = .receive (some .acknowledged) →
      Leads (.arbitrationLost b .startSeen) s s ∧ Leads (.arbitrationLost b .stopSeen) s s)

/-- ADDRESS_BYTE_HEARD, WRITE_IN_BYTE and READ_OUT_BYTE (R58, R60, R132 to R136): an address it answers to, beginning with
the bits it already knows, with a place free, makes the engine ANSWERING; a byte written in is stored and acknowledged up to
32; a byte read out is counted up to 32, the first bit of the next is placed, and none follows a refusal. The bytes given are
those of the page copy in order and then FFh. THE MODEL'S CHOICES: a byte that does not begin with the bits known cannot be
heard, and no byte is read out after a refusal (log entries 2 and 26); each command holds the fall of clock that ends it (log
entry 12). -/
def Obligations.ResponderAnswersAsATarget : Prop :=
  (∀ (s : State) (b : BusId), s.resetLow = false →
    let x := s.bus b
    let m := clockFell x.monitor
    (∀ (known : List Bool) (value : Byte), x.engine = .occupied (some known) →
      let bits : List Bool := (List.range 8).map fun i => value.getLsbD (7 - i)
      let opens (kind : ReceptionKind) (broadcast : Bool) (given : Option Byte) : State :=
        s.setBus b { x with
          engine := .answering
            { kind := kind, broadcast := broadcast, truncated := false, count := 0, data := []
              pageCopy := (if kind = .read then x.page else []), closed := false }
          dataOut := .low, sending := given, bitsPlaced := 0, monitor := m }
      let named (direction : Nat) : Prop := ∃ a, x.ownAddress = some a ∧ value.toNat = 2 * a.toNat + direction
      (bits.take known.length ≠ known → Leads (.addressByteHeard b value) s s) ∧
      (bits.take known.length = known →
        (s.inbound.length + s.reservations < 8 →
          (value = 0x00#8 → x.broadcastAccept = true → Leads (.addressByteHeard b value) s (opens .write true none)) ∧
          (value ≠ 0x00#8 → named 0 → Leads (.addressByteHeard b value) s (opens .write false none)) ∧
          (named 1 → Leads (.addressByteHeard b value) s (opens .read false (some (x.page.headD 0xFF#8))))) ∧
        (8 ≤ s.inbound.length + s.reservations ∨ (value = 0x00#8 ∧ x.broadcastAccept = false) ∨
            (value ≠ 0x00#8 ∧ ¬ named 0 ∧ ¬ named 1) →
          Leads (.addressByteHeard b value) s (s.setBus b (atRest x (.occupied none) m))))) ∧
    (∀ (r : Reception) (value : Byte), x.engine = .answering r → r.kind = .write →
      (r.count < 32 → Leads (.writeInByte b value) s (s.setBus b { x with
        engine := .answering { r with data := r.data ++ [value], count := r.count + 1 }
        dataOut := .low, sending := none, bitsPlaced := 0, monitor := m })) ∧
      (32 ≤ r.count → Leads (.writeInByte b value) s (s.setBus b { x with
        engine := .answering { r with truncated := true }, dataOut := .released, sending := none, bitsPlaced := 0
        monitor := m }))) ∧
    (∀ (r : Reception) (ack : AckBit), x.engine = .answering r → r.kind = .read →
      (r.closed = true → Leads (.readOutByte b ack) s s) ∧
      (r.closed = false →
        ∃ r' : Reception,
          (r.count < 32 → r' = { r with count := r.count + 1, closed := decide (ack = .refused) }) ∧
          (32 ≤ r.count → r' = { r with truncated := true, closed := decide (ack = .refused) }) ∧
          Leads (.readOutByte b ack) s (s.setBus b { x with
            engine := .answering r', sending := r'.byteGiven, bitsPlaced := if ack = .refused then 0 else 1, monitor := m
            dataOut := if r'.byteGiven.any (fun v => !v.getLsbD 7) then .low else .released })))) ∧
  (∀ r : Reception,
    (r.kind = .write ∨ r.closed = true → r.byteGiven = none) ∧
    (r.kind = .read → r.closed = false →
      (∀ before v after, r.pageCopy = before ++ v :: after → r.count = before.length → r.byteGiven = some v) ∧
      (r.pageCopy.length ≤ r.count → r.byteGiven = some 0xFF#8)))

/-- While RESET# is held low no happening but power-on and the pin changes anything (R167; log entry 16). THE
MODEL'S CHOICE (log entry 2): a happening of the line or the engine that cannot occur in the engine's state changes
nothing. START_SEEN, STOP_SEEN and BUS_FREE out of place are in `StartSeenActsByTheEngine` and
`StopSeenAndBusFreeActByTheEngine`, CLEARED after a failed ninth pulse in `ClearingBeginsAndEnds`, the causes of a loss out of
their phase in `ArbitrationIsLost`. -/
def Obligations.HappeningsOutOfPlaceChangeNothing : Prop :=
  (∀ (c : Instr) (s : State), s.resetLow = true → c ≠ .powerOn → c ≠ .resetPinAssert → c ≠ .resetPinRelease →
    c.wellFormed = true → exec c s = .next s) ∧
  (∀ (s : State) (b : BusId) (ack : AckBit) (value : Byte) (rose : Bool) (cause : LossCause), s.resetLow = false →
    let e := (s.bus b).engine
    let outside (c : Instr) (place : Prop) : Prop := ¬ place → Leads c s s
    (s.transmitter = .idle → Leads .frameSent s s) ∧
    outside (.startMade b) (∃ w, e = .idle (some w)) ∧
    outside (.arbitrationLost b cause) (e.value = 0x03#8) ∧
    outside (.stall b) (e.value = 0x03#8) ∧
    outside (.stopReleased b rose) (∃ r w, e = .driving (.stop r) w) ∧
    outside (.addressByteAnswered b ack) (∃ t, e = .driving .start (.record t) ∨ e = .driving .address (.record t)) ∧
    outside (.probeAnswered b ack) (∃ h, e = .driving .start (.probe h) ∨ e = .driving .address (.probe h)) ∧
    outside (.writeByteAnswered b ack) (∃ t, e = .driving .send (.record t)) ∧
    outside (.readByteTaken b (.complete value)) (∃ t, e = .driving (.receive none) (.record t)) ∧
    outside (.readByteTaken b .answered) (∃ g t, e = .driving (.receive (some g)) (.record t)) ∧
    outside (.repeatedStartMade b) (∃ t, e = .driving .restart (.record t)) ∧
    outside (.stuck b) (e.value = 0x02#8 ∨ e.value = 0x04#8) ∧
    outside (.cleared b) (e.value = 0x05#8) ∧
    outside (.clearingFailed b) (e.value = 0x05#8) ∧
    outside (.addressByteHeard b value) (∃ known, e = .occupied (some known)) ∧
    outside (.writeInByte b value) (∃ r, e = .answering r ∧ r.kind = .write) ∧
    outside (.readOutByte b ack) (∃ r, e = .answering r ∧ r.kind = .read))

/-! ### Laws that every step keeps -/

/-- A step keeps the laws of the slots, the intake and the reply cache (R150, R152, R154). -/
def Obligations.StepKeepsTheSlotLaws : Prop :=
  ∀ s t : State, s.SlotsFit ∧ s.IntakeTagsDistinct ∧ s.CacheSound → step s = .next t →
    t.SlotsFit ∧ t.IntakeTagsDistinct ∧ t.CacheSound

/-- A step keeps one switch point owed for a pending rate and one reset point owed for a HALTED handler (R156, R165). -/
def Obligations.StepKeepsTheReplyMarks : Prop :=
  ∀ s t : State, s.MarksKept → step s = .next t → t.MarksKept

/-- A step keeps every record on the bus it names, in the sub-list of its class, each queue within its 16 places, and no
eligible work before an IDLE engine that holds none (R3, R7, R12). -/
def Obligations.StepKeepsTheQueueLaws : Prop :=
  ∀ s t : State, s.RecordsAtHome ∧ s.ClassesKept ∧ s.QueuesFit ∧ s.IdleSelected → step s = .next t →
    t.RecordsAtHome ∧ t.ClassesKept ∧ t.QueuesFit ∧ t.IdleSelected

/-- A step keeps the pool's 48 records, the polls' reserved records, the order of the store and the wait list, and every
ticket held once (R2, R6, R25, R79, R81). -/
def Obligations.StepKeepsThePoolAndTicketLaws : Prop :=
  ∀ s t : State,
    s.PollRecordsHeld ∧ s.PoolHolds ∧ s.StoreOrdered ∧ s.WaitersAreHost ∧ s.TicketsDistinct → step s = .next t →
    t.PollRecordsHeld ∧ t.PoolHolds ∧ t.StoreOrdered ∧ t.WaitersAreHost ∧ t.TicketsDistinct

/-- A step keeps the line of an IDLE engine FREE and of an OCCUPIED, DRIVING or ANSWERING one HELD, both lines high while one
is FREE, and inbound records and reservations within 8; unless RESET# is low, the byte each bus sends and what it does to its
lines as its engine's state calls for; and a clearing within nine pulses (R27, R28, R31, R45, R46, R48, R51, R65, R133, R136, Table
3-1). THE MODEL'S CHOICES: how many bits of a byte are placed at a step, and so what stands on data (log entry 12); the stages of a
clearing at the boundaries of steps, the failed one among them (log entry 14). -/
def Obligations.StepKeepsTheLineAndInboundLaws : Prop :=
  ∀ s t : State,
    s.IdleLinesFree ∧ s.LinesHeld ∧ s.FreeLinesHigh ∧ s.SendingKept ∧ s.OutputsKept ∧ s.PulsesFit ∧ s.InboundFits →
    step s = .next t →
    t.IdleLinesFree ∧ t.LinesHeld ∧ t.FreeLinesHigh ∧ t.SendingKept ∧ t.OutputsKept ∧ t.PulsesFit ∧ t.InboundFits

/-- A step keeps the target of every record and poll in use, on the record's bus; no queued record of a QUARANTINED target;
a poll PAUSED exactly while its target is QUARANTINED; no entry of a bus with the bus's own address; and, unless RESET# is low, the
address byte a record's engine sends in ADDRESS that of its entry (R18, R30, R46, R90, R103, R111, R129). -/
def Obligations.StepKeepsTheTargetsInUse : Prop :=
  ∀ s t : State,
    s.RecordsAtHome ∧ s.TargetsUsed ∧ s.PollsFollowTargets ∧ s.QueuesOutOfQuarantine ∧ s.OwnAddressesApart ∧
      s.AddressesSent →
    step s = .next t →
    t.RecordsAtHome ∧ t.TargetsUsed ∧ t.PollsFollowTargets ∧ t.QueuesOutOfQuarantine ∧ t.OwnAddressesApart ∧
      t.AddressesSent

/-- A step keeps the directory's laws: no two entries name one bus and address, none has its bus's own address, a
probe status only in QUARANTINED, and ISSUED only while the engine of the bus holds that probe (R90, R93, R129). -/
def Obligations.StepKeepsTheDirectoryLaws : Prop :=
  ∀ s t : State,
    s.TargetsDistinct ∧ s.OwnAddressesApart ∧ s.ProbesInQuarantine ∧ s.ProbesHeld → step s = .next t →
    t.TargetsDistinct ∧ t.OwnAddressesApart ∧ t.ProbesInQuarantine ∧ t.ProbesHeld

/-- The state right after reset holds the values the manual gives (R26, R42, R75, R89, R110, R128, R143, R159, R161, R167,
R169, R170), sends the notice that announces RESTARTED (R159, R166; log entry 21), and meets every law that a step keeps. THE
MODEL'S CHOICES: the levels of the lines, both high (log entry 11), RESET# high (log entry 30), and what the receiver holds while
there is no frame (log entry 32). -/
def Obligations.ResetStateMeetsTheLaws : Prop :=
  AfterReset .r115200 State.reset State.reset ∧ State.reset.pending = [] ∧ RestartAnnounced State.reset ∧
  State.reset.resetLow = false ∧ (∀ b, (State.reset.bus b).monitor.bothHigh = true) ∧
  State.reset.SlotsFit ∧ State.reset.IntakeTagsDistinct ∧ State.reset.CacheSound ∧ State.reset.MarksKept ∧
  State.reset.RecordsAtHome ∧ State.reset.ClassesKept ∧ State.reset.QueuesFit ∧ State.reset.IdleSelected ∧
  State.reset.PollRecordsHeld ∧ State.reset.PoolHolds ∧ State.reset.StoreOrdered ∧ State.reset.WaitersAreHost ∧
  State.reset.TicketsDistinct ∧ State.reset.IdleLinesFree ∧ State.reset.LinesHeld ∧ State.reset.FreeLinesHigh ∧
  State.reset.SendingKept ∧ State.reset.OutputsKept ∧ State.reset.PulsesFit ∧ State.reset.InboundFits ∧ State.reset.TargetsUsed ∧
  State.reset.PollsFollowTargets ∧ State.reset.QueuesOutOfQuarantine ∧ State.reset.AddressesSent ∧
  State.reset.TargetsDistinct ∧ State.reset.OwnAddressesApart ∧ State.reset.ProbesInQuarantine ∧
  State.reset.ProbesHeld ∧ State.reset.AnnouncedRaised ∧ State.reset.SendsWhatItOwes
end

