-- ==== Sys2Proof/Laws/State.lean ====
section
/-! SUPPORT. Reading the state after an update: one lemma per field for the three table writes, and what the readers of
buses, entries and polls see after each write. -/

namespace Sys2Proof.Machine

/-! ### Fields after `setBus` -/

@[simp] theorem State.setBus_pending (s : State) (b : BusId) (x : Bus) : (s.setBus b x).pending = s.pending := rfl
@[simp] theorem State.setBus_freeIndex (s : State) (b : BusId) (x : Bus) : (s.setBus b x).freeIndex = s.freeIndex := rfl
@[simp] theorem State.setBus_time (s : State) (b : BusId) (x : Bus) : (s.setBus b x).time = s.time := rfl
@[simp] theorem State.setBus_resetLow (s : State) (b : BusId) (x : Bus) : (s.setBus b x).resetLow = s.resetLow := rfl
@[simp] theorem State.setBus_rate (s : State) (b : BusId) (x : Bus) : (s.setBus b x).rate = s.rate := rfl
@[simp] theorem State.setBus_pendingRate (s : State) (b : BusId) (x : Bus) : (s.setBus b x).pendingRate = s.pendingRate := rfl
@[simp] theorem State.setBus_receiver (s : State) (b : BusId) (x : Bus) : (s.setBus b x).receiver = s.receiver := rfl
@[simp] theorem State.setBus_discards (s : State) (b : BusId) (x : Bus) : (s.setBus b x).discards = s.discards := rfl
@[simp] theorem State.setBus_intake (s : State) (b : BusId) (x : Bus) : (s.setBus b x).intake = s.intake := rfl
@[simp] theorem State.setBus_filled (s : State) (b : BusId) (x : Bus) : (s.setBus b x).filled = s.filled := rfl
@[simp] theorem State.setBus_cache (s : State) (b : BusId) (x : Bus) : (s.setBus b x).cache = s.cache := rfl
@[simp] theorem State.setBus_transmitter (s : State) (b : BusId) (x : Bus) : (s.setBus b x).transmitter = s.transmitter := rfl
@[simp] theorem State.setBus_handler (s : State) (b : BusId) (x : Bus) : (s.setBus b x).handler = s.handler := rfl
@[simp] theorem State.setBus_restarted (s : State) (b : BusId) (x : Bus) : (s.setBus b x).restarted = s.restarted := rfl
@[simp] theorem State.setBus_mask (s : State) (b : BusId) (x : Bus) : (s.setBus b x).mask = s.mask := rfl
@[simp] theorem State.setBus_announced (s : State) (b : BusId) (x : Bus) : (s.setBus b x).announced = s.announced := rfl
@[simp] theorem State.setBus_nextTicket (s : State) (b : BusId) (x : Bus) : (s.setBus b x).nextTicket = s.nextTicket := rfl
@[simp] theorem State.setBus_store (s : State) (b : BusId) (x : Bus) : (s.setBus b x).store = s.store := rfl
@[simp] theorem State.setBus_waitList (s : State) (b : BusId) (x : Bus) : (s.setBus b x).waitList = s.waitList := rfl
@[simp] theorem State.setBus_directory (s : State) (b : BusId) (x : Bus) : (s.setBus b x).directory = s.directory := rfl
@[simp] theorem State.setBus_polls (s : State) (b : BusId) (x : Bus) : (s.setBus b x).polls = s.polls := rfl
@[simp] theorem State.setBus_inbound (s : State) (b : BusId) (x : Bus) : (s.setBus b x).inbound = s.inbound := rfl

/-! ### Fields after `setEntry` -/

@[simp] theorem State.setEntry_pending (s : State) (h : Handle) (e : Option Entry) : (s.setEntry h e).pending = s.pending := rfl
@[simp] theorem State.setEntry_freeIndex (s : State) (h : Handle) (e : Option Entry) : (s.setEntry h e).freeIndex = s.freeIndex := rfl
@[simp] theorem State.setEntry_time (s : State) (h : Handle) (e : Option Entry) : (s.setEntry h e).time = s.time := rfl
@[simp] theorem State.setEntry_resetLow (s : State) (h : Handle) (e : Option Entry) : (s.setEntry h e).resetLow = s.resetLow := rfl
@[simp] theorem State.setEntry_rate (s : State) (h : Handle) (e : Option Entry) : (s.setEntry h e).rate = s.rate := rfl
@[simp] theorem State.setEntry_pendingRate (s : State) (h : Handle) (e : Option Entry) : (s.setEntry h e).pendingRate = s.pendingRate := rfl
@[simp] theorem State.setEntry_receiver (s : State) (h : Handle) (e : Option Entry) : (s.setEntry h e).receiver = s.receiver := rfl
@[simp] theorem State.setEntry_discards (s : State) (h : Handle) (e : Option Entry) : (s.setEntry h e).discards = s.discards := rfl
@[simp] theorem State.setEntry_intake (s : State) (h : Handle) (e : Option Entry) : (s.setEntry h e).intake = s.intake := rfl
@[simp] theorem State.setEntry_filled (s : State) (h : Handle) (e : Option Entry) : (s.setEntry h e).filled = s.filled := rfl
@[simp] theorem State.setEntry_cache (s : State) (h : Handle) (e : Option Entry) : (s.setEntry h e).cache = s.cache := rfl
@[simp] theorem State.setEntry_transmitter (s : State) (h : Handle) (e : Option Entry) : (s.setEntry h e).transmitter = s.transmitter := rfl
@[simp] theorem State.setEntry_handler (s : State) (h : Handle) (e : Option Entry) : (s.setEntry h e).handler = s.handler := rfl
@[simp] theorem State.setEntry_restarted (s : State) (h : Handle) (e : Option Entry) : (s.setEntry h e).restarted = s.restarted := rfl
@[simp] theorem State.setEntry_mask (s : State) (h : Handle) (e : Option Entry) : (s.setEntry h e).mask = s.mask := rfl
@[simp] theorem State.setEntry_announced (s : State) (h : Handle) (e : Option Entry) : (s.setEntry h e).announced = s.announced := rfl
@[simp] theorem State.setEntry_nextTicket (s : State) (h : Handle) (e : Option Entry) : (s.setEntry h e).nextTicket = s.nextTicket := rfl
@[simp] theorem State.setEntry_buses (s : State) (h : Handle) (e : Option Entry) : (s.setEntry h e).buses = s.buses := rfl
@[simp] theorem State.setEntry_store (s : State) (h : Handle) (e : Option Entry) : (s.setEntry h e).store = s.store := rfl
@[simp] theorem State.setEntry_waitList (s : State) (h : Handle) (e : Option Entry) : (s.setEntry h e).waitList = s.waitList := rfl
@[simp] theorem State.setEntry_polls (s : State) (h : Handle) (e : Option Entry) : (s.setEntry h e).polls = s.polls := rfl
@[simp] theorem State.setEntry_inbound (s : State) (h : Handle) (e : Option Entry) : (s.setEntry h e).inbound = s.inbound := rfl

/-! ### Fields after `setPoll` -/

@[simp] theorem State.setPoll_pending (s : State) (i : PollIndex) (p : Option Poll) : (s.setPoll i p).pending = s.pending := rfl
@[simp] theorem State.setPoll_freeIndex (s : State) (i : PollIndex) (p : Option Poll) : (s.setPoll i p).freeIndex = s.freeIndex := rfl
@[simp] theorem State.setPoll_time (s : State) (i : PollIndex) (p : Option Poll) : (s.setPoll i p).time = s.time := rfl
@[simp] theorem State.setPoll_resetLow (s : State) (i : PollIndex) (p : Option Poll) : (s.setPoll i p).resetLow = s.resetLow := rfl
@[simp] theorem State.setPoll_rate (s : State) (i : PollIndex) (p : Option Poll) : (s.setPoll i p).rate = s.rate := rfl
@[simp] theorem State.setPoll_pendingRate (s : State) (i : PollIndex) (p : Option Poll) : (s.setPoll i p).pendingRate = s.pendingRate := rfl
@[simp] theorem State.setPoll_receiver (s : State) (i : PollIndex) (p : Option Poll) : (s.setPoll i p).receiver = s.receiver := rfl
@[simp] theorem State.setPoll_discards (s : State) (i : PollIndex) (p : Option Poll) : (s.setPoll i p).discards = s.discards := rfl
@[simp] theorem State.setPoll_intake (s : State) (i : PollIndex) (p : Option Poll) : (s.setPoll i p).intake = s.intake := rfl
@[simp] theorem State.setPoll_filled (s : State) (i : PollIndex) (p : Option Poll) : (s.setPoll i p).filled = s.filled := rfl
@[simp] theorem State.setPoll_cache (s : State) (i : PollIndex) (p : Option Poll) : (s.setPoll i p).cache = s.cache := rfl
@[simp] theorem State.setPoll_transmitter (s : State) (i : PollIndex) (p : Option Poll) : (s.setPoll i p).transmitter = s.transmitter := rfl
@[simp] theorem State.setPoll_handler (s : State) (i : PollIndex) (p : Option Poll) : (s.setPoll i p).handler = s.handler := rfl
@[simp] theorem State.setPoll_restarted (s : State) (i : PollIndex) (p : Option Poll) : (s.setPoll i p).restarted = s.restarted := rfl
@[simp] theorem State.setPoll_mask (s : State) (i : PollIndex) (p : Option Poll) : (s.setPoll i p).mask = s.mask := rfl
@[simp] theorem State.setPoll_announced (s : State) (i : PollIndex) (p : Option Poll) : (s.setPoll i p).announced = s.announced := rfl
@[simp] theorem State.setPoll_nextTicket (s : State) (i : PollIndex) (p : Option Poll) : (s.setPoll i p).nextTicket = s.nextTicket := rfl
@[simp] theorem State.setPoll_buses (s : State) (i : PollIndex) (p : Option Poll) : (s.setPoll i p).buses = s.buses := rfl
@[simp] theorem State.setPoll_store (s : State) (i : PollIndex) (p : Option Poll) : (s.setPoll i p).store = s.store := rfl
@[simp] theorem State.setPoll_waitList (s : State) (i : PollIndex) (p : Option Poll) : (s.setPoll i p).waitList = s.waitList := rfl
@[simp] theorem State.setPoll_directory (s : State) (i : PollIndex) (p : Option Poll) : (s.setPoll i p).directory = s.directory := rfl
@[simp] theorem State.setPoll_inbound (s : State) (i : PollIndex) (p : Option Poll) : (s.setPoll i p).inbound = s.inbound := rfl

/-! ### Buses -/

@[simp] theorem State.bus_setBus_same (s : State) (b : BusId) (x : Bus) : (s.setBus b x).bus b = x := by
  simp [State.bus, State.setBus]

theorem State.bus_setBus_ne (s : State) {b c : BusId} (x : Bus) (h : b ≠ c) : (s.setBus b x).bus c = s.bus c := by
  have h' : b.val ≠ c.val := fun e => h (Fin.ext e)
  simp [State.bus, State.setBus, Vector.getElem_set_ne, h']

theorem State.bus_setBus (s : State) (b c : BusId) (x : Bus) :
    (s.setBus b x).bus c = if b = c then x else s.bus c := by
  by_cases h : b = c
  · subst h; simp
  · simp [h, State.bus_setBus_ne]

@[simp] theorem State.setBus_setBus (s : State) (b : BusId) (x y : Bus) : (s.setBus b x).setBus b y = s.setBus b y := by
  simp [State.setBus]

@[simp] theorem State.setBus_bus (s : State) (b : BusId) : s.setBus b (s.bus b) = s := by
  simp [State.setBus, State.bus]

@[simp] theorem State.bus_setEntry (s : State) (h : Handle) (e : Option Entry) (b : BusId) :
    (s.setEntry h e).bus b = s.bus b := rfl

@[simp] theorem State.bus_setPoll (s : State) (i : PollIndex) (p : Option Poll) (b : BusId) :
    (s.setPoll i p).bus b = s.bus b := rfl

/-- A change of the monitor that leaves it as it is changes nothing. -/
theorem State.mapMonitor_eq_self {s : State} {b : BusId} {f : Monitor → Monitor}
    (h : f (s.bus b).monitor = (s.bus b).monitor) : s.mapMonitor b f = s := by
  rw [State.mapMonitor, h]
  exact s.setBus_bus b

/-! ### Entries -/

@[simp] theorem State.entry_setEntry_same (s : State) (h : Handle) (e : Option Entry) : (s.setEntry h e).entry h = e := by
  simp [State.entry, State.setEntry]

theorem State.entry_setEntry_ne (s : State) {h k : Handle} (e : Option Entry) (n : h ≠ k) :
    (s.setEntry h e).entry k = s.entry k := by
  have n' : h.val ≠ k.val := fun e => n (Fin.ext e)
  simp [State.entry, State.setEntry, Vector.getElem_set_ne, n']

theorem State.entry_setEntry (s : State) (h k : Handle) (e : Option Entry) :
    (s.setEntry h e).entry k = if h = k then e else s.entry k := by
  by_cases n : h = k
  · subst n; simp
  · simp [n, State.entry_setEntry_ne]

@[simp] theorem State.entry_setBus (s : State) (b : BusId) (x : Bus) (h : Handle) :
    (s.setBus b x).entry h = s.entry h := rfl

@[simp] theorem State.entry_setPoll (s : State) (i : PollIndex) (p : Option Poll) (h : Handle) :
    (s.setPoll i p).entry h = s.entry h := rfl

/-! ### Polls -/

@[simp] theorem State.poll_setPoll_same (s : State) (i : PollIndex) (p : Option Poll) : (s.setPoll i p).poll i = p := by
  simp [State.poll, State.setPoll]

theorem State.poll_setPoll_ne (s : State) {i j : PollIndex} (p : Option Poll) (n : i ≠ j) :
    (s.setPoll i p).poll j = s.poll j := by
  have n' : i.val ≠ j.val := fun e => n (Fin.ext e)
  simp [State.poll, State.setPoll, Vector.getElem_set_ne, n']

theorem State.poll_setPoll (s : State) (i j : PollIndex) (p : Option Poll) :
    (s.setPoll i p).poll j = if i = j then p else s.poll j := by
  by_cases n : i = j
  · subst n; simp
  · simp [n, State.poll_setPoll_ne]

@[simp] theorem State.poll_setBus (s : State) (b : BusId) (x : Bus) (i : PollIndex) :
    (s.setBus b x).poll i = s.poll i := rfl

@[simp] theorem State.poll_setEntry (s : State) (h : Handle) (e : Option Entry) (i : PollIndex) :
    (s.setEntry h e).poll i = s.poll i := rfl

/-! ### Tables changed at every member -/

@[simp] theorem mapTable_getElem {α : Type} {n : Nat} (f : α → α) (v : Vector α n) (i : Nat) (h : i < n) :
    (mapTable f v)[i] = f v[i] := by
  simp [mapTable]

@[simp] theorem busTable_getElem (f : BusId → Bus) (b : BusId) : (busTable f)[b] = f b := by
  simp [busTable, allBuses]

@[simp] theorem State.bus_fullReset (s : State) (rate : LinkRate) (sensed : Bool) (b : BusId) :
    (s.fullReset rate sensed).bus b = Bus.reset (s.levelAfterReset sensed b) :=
  busTable_getElem (fun b => Bus.reset (s.levelAfterReset sensed b)) b

@[simp] theorem State.poll_mapPolls (s : State) (f : Poll → Poll) (i : PollIndex) :
    (s.mapPolls f).poll i = (s.poll i).map f := by
  simp [State.poll, State.mapPolls]

@[simp] theorem State.bus_mapPolls (s : State) (f : Poll → Poll) (b : BusId) : (s.mapPolls f).bus b = s.bus b := rfl

@[simp] theorem State.entry_mapPolls (s : State) (f : Poll → Poll) (h : Handle) :
    (s.mapPolls f).entry h = s.entry h := rfl

end Sys2Proof.Machine
end

