-- ==== Sys2Proof/Laws/Settling.lean ====
section
/-! SUPPORT. The end of a step, and the handling of a request: one lemma for each shared operation that says all it does.
The claims about single commands cite these and unfold neither `settle` nor `request`. -/

namespace Sys2Proof.Machine

/-! ### Flags -/

@[simp] theorem raised_announced (s : State) (a : FlagSet) : raised { s with announced := a } = raised s := rfl

@[simp] theorem eligible_announced (s : State) (a : FlagSet) : eligible { s with announced := a } = eligible s := rfl

/-- What is eligible is raised, so it is announced exactly when it is still announced. -/
theorem eligible_subset_inter (s : State) (a : FlagSet) :
    (eligible s).subset (a.inter (raised s)) = (eligible s).subset a := by
  simp only [eligible, FlagSet.inter, FlagSet.subset]
  generalize raised s = r
  cases r with
  | mk r1 r2 r3 r4 r5 r6 =>
    cases r1 <;> cases r2 <;> cases r3 <;> cases r4 <;> cases r5 <;> cases r6 <;> simp

theorem noticePending_stillAnnounced (s : State) :
    noticePending { s with announced := s.announced.inter (raised s) } = noticePending s := by
  have h := eligible_subset_inter s s.announced
  simp only [noticePending, eligible_announced, h]

/-! ### The end of a step -/

/-- A state that composes its notice does so by what is raised, whatever is announced. -/
theorem composeNotice_announced (u : State) (a : FlagSet) :
    ({ u with announced := a } : State).composeNotice =
      { u with transmitter := .notice (noticeFrame u), announced := eligible u } := rfl

/-- A transmitter that starts the first filled slot. -/
theorem startReply_cons (u : State) {r : Reply} {rest : List Reply} (h : u.filled = r :: rest) :
    u.startReply = { u with transmitter := .reply r, filled := rest } := by
  simp [State.startReply, h]

theorem startReply_nil (u : State) (ht : u.transmitter = .idle) (h : u.filled = []) : u.startReply = u := by
  cases u
  simp_all [State.startReply]

/-- Everything a choice of the transmitter can do, at the end of a step that left it idle. -/
theorem kick_idle (u : State) (ht : u.transmitter = .idle) :
    (u.kick = u ∧ noticePending u = false ∧ u.filled = []) ∨
    (∃ n, u.kick = ({ u with freeIndex := n } : State).composeNotice ∧ noticePending u = true) ∨
    (∃ n r rest, u.filled = r :: rest ∧ (noticePending u = true → u.restartPending = false) ∧
      u.kick = { u with transmitter := .reply r, filled := rest, freeIndex := n }) := by
  have hk : u.kick = if noticePending u && !u.filled.isEmpty && !u.restartPending then
      (if Config.replyFirst u.freeIndex then ({ u with freeIndex := u.freeIndex + 1 } : State).startReply
        else ({ u with freeIndex := u.freeIndex + 1 } : State).composeNotice)
      else u.chooseFrame := by
    simp only [State.kick, ht]
  rw [hk]
  have hf : u.filled = [] ∨ ∃ r rest, u.filled = r :: rest := by cases u.filled <;> simp
  by_cases hn : noticePending u = true
  · rcases hf with hf | ⟨r, rest, hf⟩
    · exact .inr (.inl ⟨u.freeIndex, by rw [if_neg (by simp [hf]), State.chooseFrame, if_pos hn], hn⟩)
    · by_cases hr : u.restartPending = true
      · exact .inr (.inl ⟨u.freeIndex, by rw [if_neg (by simp [hr]), State.chooseFrame, if_pos hn], hn⟩)
      · rw [if_pos (by simp [hn, hf, hr])]
        by_cases hc : Config.replyFirst u.freeIndex = true
        · refine .inr (.inr ⟨u.freeIndex + 1, r, rest, hf, fun _ => by simpa using hr, ?_⟩)
          rw [if_pos hc]
          exact startReply_cons { u with freeIndex := u.freeIndex + 1 } hf
        · exact .inr (.inl ⟨u.freeIndex + 1, by rw [if_neg hc], hn⟩)
  · rw [if_neg (by simp [hn]), State.chooseFrame, if_neg hn]
    rcases hf with hf | ⟨r, rest, hf⟩
    · exact .inl ⟨startReply_nil u ht hf, by simpa using hn, hf⟩
    · exact .inr (.inr ⟨u.freeIndex, r, rest, hf, fun h => absurd h hn, startReply_cons u hf⟩)

/-- Everything the end of a step can do. -/
theorem settle_settled (u : State) : Settled u u.settle := by
  have hp := noticePending_stillAnnounced u
  cases ht : u.transmitter with
  | reply r => exact .inl ⟨by simp [State.settle, State.kick, ht, State.stillAnnounced], by simp [ht]⟩
  | notice f => exact .inl ⟨by simp [State.settle, State.kick, ht, State.stillAnnounced], by simp [ht]⟩
  | idle =>
    have hr : ({ u with announced := u.announced.inter (raised u) } : State).restartPending
        = (u.restarted && !u.announced.restarted) := by
      cases h : u.restarted <;> simp [State.restartPending, FlagSet.inter, raised, h]
    rcases kick_idle { u with announced := u.announced.inter (raised u) } ht with
      ⟨hk, hn, hf⟩ | ⟨n, hk, hn⟩ | ⟨n, r, rest, hf, hw, hk⟩
    · exact .inl ⟨hk, fun _ => ⟨hp ▸ hn, hf⟩⟩
    · exact .inr (.inl ⟨by rw [State.settle, hk]; rfl, ht, hp ▸ hn⟩)
    · exact .inr (.inr ⟨r, rest, hf, ht, fun h => hr ▸ hw (hp ▸ h), by rw [State.settle, hk]; rfl⟩)

/-! ### Commands -/

theorem act_high {s : State} (h : s.resetLow = false) (f : State → State) : act s f = .next (f s).settle := by
  simp [act, h]

theorem act_low {s : State} (h : s.resetLow = true) (f : State → State) : act s f = .next s := by
  simp [act, h]

/-- A command that acts as `f` leads to what `f` makes of the state. -/
theorem leads_of_act {c : Instr} {s u : State} {f : State → State} (he : exec c s = act s f) (h : s.resetLow = false)
    (hu : f s = u) : Leads c s u :=
  ⟨u.settle, by rw [he, act_high h, hu], settle_settled u⟩

/-- The reply placed for a request, whichever its code. -/
theorem placeReply_answered (u : State) (kind tag : Byte) (a : Answer) (hf : a.code = .ok ∨ a.fields = []) :
    Answered u (u.placeReply kind tag a).settle kind tag a.code a.fields a.mark := by
  have hfields : (if a.code = .ok then a.fields else []) = a.fields := by
    rcases hf with h | h
    · simp [h]
    · simp [h]
  have h := settle_settled (u.placeReply kind tag a)
  unfold Answered
  simp only [replyTo]
  simpa [State.placeReply, replyFrame, State.roomField, cacheJoin, hfields, Config.intakePlaces, Config.cacheEntries,
    List.drop_one] using h

/-- A request at the head of the intake is answered by its owner. -/
theorem request_ready {kind tag : Byte} {body : List Byte} {s : State} {owner : State → State × Answer}
    (hs : s.ready { kind := kind, tag := tag, body := body }) (hb : body.length ≤ 240) :
    request kind tag body owner s =
      .next (((owner s.taking).1.placeReply kind tag (owner s.taking).2).settle) := by
  obtain ⟨hl, hr, hi⟩ := hs
  simp [request, Config.maxBody, hb, act_high hl, State.present, State.handle, hi, hr, State.taking]

/-- A request command whose owner answers so replies so. -/
theorem replies_of_owner {c : Instr} {kind tag : Byte} {body : List Byte} {s u : State} {owner : State → State × Answer}
    {code : ReplyCode} {fields : List Byte} {mark : ReplyMark}
    (he : exec c s = request kind tag body owner s) (hs : s.ready { kind := kind, tag := tag, body := body })
    (hb : body.length ≤ 240) (ho : owner s.taking = (u, { code := code, fields := fields, mark := mark }))
    (hf : code = .ok ∨ fields = []) : Replies c s u kind tag code fields mark := by
  refine ⟨_, he.trans (request_ready hs hb), ?_⟩
  rw [ho]
  exact placeReply_answered u kind tag _ hf

end Sys2Proof.Machine
end

