-- ==== Sys2Proof/Laws/Commands.lean ====
section
/-! SUPPORT. The two shapes a command has: a request acts through `request` with its owner, a happening acts through `act`.
Whole-machine claims take commands apart here and unfold no dispatch of their own. -/

namespace Sys2Proof.Machine

/-- The commands that act outside `act` and `request`: power-on and the RESET# pin. -/
abbrev Resets (c : Instr) : Prop := c = .powerOn ∨ c = .resetPinAssert ∨ c = .resetPinRelease

/-- A request command whose kind fits is its owner's answer to its request. -/
theorem exec_request {c : Instr} {r : Request} (hr : requestOf c = some r) (hk : c.kindFits = true) :
    ∃ owner, ∀ s, exec c s = request r.kind r.tag r.body owner s := by
  cases c
  case unknownKind k t b =>
    obtain rfl : Request.mk k t b = r := by simpa [requestOf] using hr
    have hk' : (k.toNat < 128 && !kindListed k) = true := by simpa [Instr.kindFits, kindUnknown] using hk
    exact ⟨answerUnknownKind, fun s => by simp [exec, execUnknownKind, hk']⟩
  all_goals
    first
    | (simp only [requestOf, reduceCtorEq] at hr; done)
    | (obtain rfl := Option.some.inj hr
       exact ⟨_, fun _ => rfl⟩)

/-- An UNKNOWN_KIND command whose kind is listed, or is no request kind, stops. -/
theorem exec_unfit {c : Instr} (hk : c.kindFits = false) (s : State) : exec c s = .fault .illFormed := by
  cases c
  case unknownKind k t b =>
    have hk' : (k.toNat < 128 && !kindListed k) = false := by simpa [Instr.kindFits, kindUnknown] using hk
    simp [exec, execUnknownKind, hk']
  all_goals simp [Instr.kindFits] at hk

/-- A command that is no request and no reset is an action of the state. -/
theorem exec_happening {c : Instr} (hr : requestOf c = none) (hn : ¬ Resets c) : ∃ f, ∀ s, exec c s = act s f := by
  cases c <;>
    first
    | (simp only [requestOf, reduceCtorEq] at hr; done)
    | (simp only [Resets, reduceCtorEq, true_or, or_true, not_true_eq_false] at hn; done)
    | exact ⟨_, fun _ => rfl⟩

/-- The body of a request command is its request's. -/
theorem body?_requestOf (c : Instr) : c.body? = (requestOf c).map Request.body := by
  cases c <;> rfl

/-- A request that a frame can carry acts by its presentation and handling. -/
theorem request_act {kind tag : Byte} {body : List Byte} (hb : body.length ≤ 240) (owner : State → State × Answer)
    (s : State) :
    request kind tag body owner s =
      act s fun s => (s.present { kind := kind, tag := tag, body := body }).handle
        { kind := kind, tag := tag, body := body } owner := by
  simp [request, Config.maxBody, hb]

theorem request_long {kind tag : Byte} {body : List Byte} (hb : 240 < body.length) (owner : State → State × Answer)
    (s : State) : request kind tag body owner s = .fault .illFormed := by
  simp [request, Config.maxBody, Nat.not_le.mpr hb]

/-- A command that answers a next state: an action of the state, or one of the resets. -/
theorem exec_next {c : Instr} (hn : ¬ Resets c) {s t : State} (h : exec c s = .next t) :
    ∃ f, exec c s = act s f := by
  cases hr : requestOf c with
  | none =>
    obtain ⟨f, hf⟩ := exec_happening hr hn
    exact ⟨f, hf s⟩
  | some r =>
    cases hk : c.kindFits with
    | false => simp [exec_unfit hk] at h
    | true =>
      obtain ⟨owner, ho⟩ := exec_request hr hk
      by_cases hb : r.body.length ≤ 240
      · exact ⟨_, (ho s).trans (request_act hb owner s)⟩
      · rw [ho, request_long (by omega)] at h
        cases h

/-- The hub's own handling of a request of its intake is the command of that request. -/
theorem requestCommand_of (r : Request) (h : r.kind.toNat < 128) :
    requestOf (requestCommand r) = some r ∧ (requestCommand r).kindFits = true := by
  obtain ⟨k, t, b⟩ := r
  by_cases h01 : k = 0x01#8
  · subst h01; exact ⟨rfl, rfl⟩
  by_cases h02 : k = 0x02#8
  · subst h02; exact ⟨rfl, rfl⟩
  by_cases h03 : k = 0x03#8
  · subst h03; exact ⟨rfl, rfl⟩
  by_cases h04 : k = 0x04#8
  · subst h04; exact ⟨rfl, rfl⟩
  by_cases h05 : k = 0x05#8
  · subst h05; exact ⟨rfl, rfl⟩
  by_cases h10 : k = 0x10#8
  · subst h10; exact ⟨rfl, rfl⟩
  by_cases h11 : k = 0x11#8
  · subst h11; exact ⟨rfl, rfl⟩
  by_cases h12 : k = 0x12#8
  · subst h12; exact ⟨rfl, rfl⟩
  by_cases h13 : k = 0x13#8
  · subst h13; exact ⟨rfl, rfl⟩
  by_cases h14 : k = 0x14#8
  · subst h14; exact ⟨rfl, rfl⟩
  by_cases h20 : k = 0x20#8
  · subst h20; exact ⟨rfl, rfl⟩
  by_cases h21 : k = 0x21#8
  · subst h21; exact ⟨rfl, rfl⟩
  by_cases h22 : k = 0x22#8
  · subst h22; exact ⟨rfl, rfl⟩
  by_cases h30 : k = 0x30#8
  · subst h30; exact ⟨rfl, rfl⟩
  by_cases h31 : k = 0x31#8
  · subst h31; exact ⟨rfl, rfl⟩
  by_cases h32 : k = 0x32#8
  · subst h32; exact ⟨rfl, rfl⟩
  by_cases h33 : k = 0x33#8
  · subst h33; exact ⟨rfl, rfl⟩
  by_cases h34 : k = 0x34#8
  · subst h34; exact ⟨rfl, rfl⟩
  by_cases h40 : k = 0x40#8
  · subst h40; exact ⟨rfl, rfl⟩
  by_cases h41 : k = 0x41#8
  · subst h41; exact ⟨rfl, rfl⟩
  by_cases h42 : k = 0x42#8
  · subst h42; exact ⟨rfl, rfl⟩
  by_cases h50 : k = 0x50#8
  · subst h50; exact ⟨rfl, rfl⟩
  by_cases h51 : k = 0x51#8
  · subst h51; exact ⟨rfl, rfl⟩
  by_cases h52 : k = 0x52#8
  · subst h52; exact ⟨rfl, rfl⟩
  have hc : requestCommand ⟨k, t, b⟩ = .unknownKind k t b := by
    simp only [requestCommand, Kind.code, h01, h02, h03, h04, h05, h10, h11, h12, h13, h14, h20, h21, h22, h30, h31, h32,
      h33, h34, h40, h41, h42, h50, h51, h52, if_false]
  have hk : kindListed k = false := by
    simp only [kindListed, Kind.all, List.any_cons, List.any_nil, Kind.code, Bool.or_false, Bool.or_eq_false_iff,
      beq_eq_false_iff_ne, ne_eq, @eq_comm _ _ k, h01, h02, h03, h04, h05, h10, h11, h12, h13, h14, h20,
      h21, h22, h30, h31, h32, h33, h34, h40, h41, h42, h50, h51, h52, not_false_eq_true, and_self]
  rw [hc]
  exact ⟨rfl, by simp [Instr.kindFits, kindUnknown, hk, h]⟩

end Sys2Proof.Machine
end

