-- ==== Sys2Proof/Laws/Operations.lean ====
section
/-! SUPPORT. What each shared operation can do: which parts of the state it may change, and by which of its cases. The
claims about steps cite these and unfold no operation whose cases they do not need. -/

namespace Sys2Proof.Machine

/-! ### Decisions -/

/-- A delivered record enters the store, or joins the wait list. -/
theorem deliver_cases (s : State) (t : Txn) (o : TxnOutcome) :
    let d : Decided := { record := { t with notBefore := none, cancelPending := false }, outcome := o }
    (s.store.length < Config.storePlaces ∧ s.waitList = [] ∧
      s.deliver t o = { s with store := s.store ++ completionsOf [d] }) ∨
    (¬ (s.store.length < Config.storePlaces ∧ s.waitList = []) ∧
      s.deliver t o = { s with waitList := s.waitList ++ [d] }) := by
  intro d
  by_cases h : s.store.length < Config.storePlaces ∧ s.waitList = []
  · exact .inl ⟨h.1, h.2, by rw [State.deliver, if_pos h]⟩
  · exact .inr ⟨h, by rw [State.deliver, if_neg h]⟩

theorem deliver_frame (s : State) (t : Txn) (o : TxnOutcome) :
    ∃ st wl, s.deliver t o = { s with store := st, waitList := wl } := by
  rcases deliver_cases s t o with ⟨-, -, h⟩ | ⟨-, h⟩
  · exact ⟨_, _, h⟩
  · exact ⟨_, _, h⟩

theorem decideAside_frame (s : State) (o : TxnOutcome) (t : Txn) :
    ∃ st wl, s.decideAside o t = { s with store := st, waitList := wl } :=
  deliver_frame s _ o

/-- A run of decisions changes the store and the wait list alone. -/
theorem decideAside_foldl_frame (o : TxnOutcome) (ts : List Txn) (s : State) :
    ∃ st wl, ts.foldl (fun u t => u.decideAside o t) s = { s with store := st, waitList := wl } := by
  induction ts generalizing s with
  | nil => exact ⟨_, _, rfl⟩
  | cons t ts ih =>
    obtain ⟨st, wl, h⟩ := decideAside_frame s o t
    obtain ⟨st', wl', h'⟩ := ih (s.decideAside o t)
    exact ⟨st', wl', by rw [List.foldl_cons, h', h]⟩

theorem pollOutcome_frame (s : State) (i : PollIndex) (o : TxnOutcome) (bytes : List Byte) :
    ∃ ps, s.pollOutcome i o bytes = { s with polls := ps } :=
  ⟨_, rfl⟩

theorem conclude_frame (s : State) (t : Txn) (o : TxnOutcome) :
    ∃ st wl ps, s.conclude t o = { s with store := st, waitList := wl, polls := ps } := by
  unfold State.conclude
  split
  · obtain ⟨st, wl, h⟩ := deliver_frame s t o
    exact ⟨st, wl, _, h⟩
  · obtain ⟨ps, h⟩ := pollOutcome_frame s _ o t.progress.readBytes
    exact ⟨_, _, ps, h⟩
  · exact ⟨_, _, _, rfl⟩

/-! ### Returns -/

/-- A returned record is decided, or freed, or placed in the queue of its bus. -/
theorem giveBack_cases (s : State) (t : Txn) (place : Placement) :
    (∃ o, t.isHost = true ∧ s.giveBack t place = s.decideAside o t) ∨
    (t.isHost = false ∧ s.giveBack t place = s) ∨
    (s.quarantined t.handle = false ∧ t.isOrphan = false ∧
      s.giveBack t place = s.setBus t.bus ((s.bus t.bus).place t place)) := by
  unfold State.giveBack
  split
  · rename_i h
    exact .inl ⟨_, by simpa using (Bool.and_eq_true _ _ ▸ h).2, rfl⟩
  · split
    · split
      · rename_i h
        exact .inl ⟨_, h, rfl⟩
      · rename_i h
        exact .inr (.inl ⟨by simpa using h, rfl⟩)
    · split
      · rename_i h
        refine .inr (.inl ⟨?_, rfl⟩)
        revert h
        unfold Txn.isOrphan Txn.isHost
        split <;> simp
      · split
        · rename_i h
          refine .inl ⟨_, ?_, rfl⟩
          revert h
          unfold State.expired
          split <;> simp +contextual
        · rename_i hq ho _
          exact .inr (.inr ⟨by simpa using hq, by simpa using ho, rfl⟩)

theorem giveBack_frame (s : State) (t : Txn) (place : Placement) :
    ∃ st wl bs, s.giveBack t place = { s with store := st, waitList := wl, buses := bs } := by
  rcases giveBack_cases s t place with ⟨o, -, h⟩ | ⟨-, h⟩ | ⟨-, -, h⟩
  · obtain ⟨st, wl, hd⟩ := decideAside_frame s o t
    exact ⟨st, wl, _, h.trans hd⟩
  · exact ⟨_, _, _, h⟩
  · exact ⟨_, _, _, h⟩

theorem reportRefusal_frame (s : State) (t : Txn) :
    ∃ st wl bs ps, s.reportRefusal t = { s with store := st, waitList := wl, buses := bs, polls := ps } := by
  unfold State.reportRefusal
  dsimp only
  split
  · obtain ⟨st, wl, bs, h⟩ := giveBack_frame s { t with attemptsLeft := t.attemptsLeft - 1 }
      (.tailWaiting (s.now + s.retryGap t.handle))
    exact ⟨st, wl, bs, _, h⟩
  · obtain ⟨st, wl, ps, h⟩ := conclude_frame s { t with attemptsLeft := t.attemptsLeft - 1 } .noTarget
    exact ⟨st, wl, _, ps, h⟩

theorem reportLoss_frame (s : State) (t : Txn) :
    ∃ st wl bs ps, s.reportLoss t = { s with store := st, waitList := wl, buses := bs, polls := ps } := by
  unfold State.reportLoss
  dsimp only
  split
  · obtain ⟨st, wl, bs, h⟩ := giveBack_frame s { t with lostArbitrations := t.lostArbitrations + 1 } .headQueued
    exact ⟨st, wl, bs, _, h⟩
  · obtain ⟨st, wl, ps, h⟩ := conclude_frame s { t with lostArbitrations := t.lostArbitrations + 1 } .lostBus
    exact ⟨st, wl, _, ps, h⟩

/-! ### Probes and selection -/

/-- A probe given up is due again, or was not waited on. -/
theorem giveUpProbe_cases (s : State) (b : BusId) (h : Handle) :
    s.giveUpProbe b h = s ∨
    ∃ e, s.entry h = some e ∧ e.probe = .issued ∧ e.bus = b ∧
      s.giveUpProbe b h = s.setEntry h (some { e with probe := .due }) := by
  unfold State.giveUpProbe
  split
  · split
    · rename_i e he hi
      exact .inr ⟨e, he, hi.1, hi.2, rfl⟩
    · exact .inl rfl
  · exact .inl rfl

theorem giveUpProbe_frame (s : State) (b : BusId) (h : Handle) :
    ∃ dir, s.giveUpProbe b h = { s with directory := dir } := by
  rcases giveUpProbe_cases s b h with hs | ⟨e, -, -, -, hs⟩
  · exact ⟨_, hs⟩
  · exact ⟨_, hs⟩

theorem giveUpWork_frame (s : State) (b : BusId) (w : Work) :
    ∃ st wl bs dir, s.giveUpWork b w = { s with store := st, waitList := wl, buses := bs, directory := dir } := by
  cases w with
  | record t =>
    obtain ⟨st, wl, bs, h⟩ := giveBack_frame s t .headQueued
    exact ⟨st, wl, bs, _, h⟩
  | probe h =>
    obtain ⟨dir, hd⟩ := giveUpProbe_frame s b h
    exact ⟨_, _, _, dir, hd⟩

/-- Taking a queued record takes a QUEUED one, and keeps the others in their order. -/
theorem takeQueued_some {l : List Txn} {t : Txn} {rest : List Txn} (h : takeQueued l = some (t, rest)) :
    ∃ before after, l = before ++ t :: after ∧ rest = before ++ after ∧ t.notBefore = none ∧
      ∀ u ∈ before, u.notBefore.isSome = true := by
  induction l generalizing rest with
  | nil => simp [takeQueued] at h
  | cons u us ih =>
    unfold takeQueued at h
    split at h
    · rename_i hu
      obtain ⟨rfl, rfl⟩ : u = t ∧ us = rest := by simpa using h
      exact ⟨[], us, rfl, rfl, hu, by simp⟩
    · rename_i hu
      obtain ⟨⟨t', rest'⟩, hr, he⟩ := Option.map_eq_some_iff.mp h
      obtain ⟨rfl, rfl⟩ : t' = t ∧ u :: rest' = rest := by simpa using he
      obtain ⟨before, after, h1, h2, h3, h4⟩ := ih hr
      refine ⟨u :: before, after, by simp [h1], by simp [h2], h3, ?_⟩
      intro v hv
      rcases List.mem_cons.mp hv with rfl | hv
      · exact Option.isSome_iff_ne_none.mpr hu
      · exact h4 v hv

/-- Nothing is taken exactly when every record waits. -/
theorem takeQueued_none {l : List Txn} : takeQueued l = none ↔ ∀ u ∈ l, u.notBefore.isSome = true := by
  induction l with
  | nil => simp [takeQueued]
  | cons u us ih =>
    unfold takeQueued
    split
    · rename_i hu
      simp [hu]
    · rename_i hu
      simp [ih, Option.isSome_iff_ne_none.mpr hu]

/-- Selection hands a due probe or a record to the engine, or changes nothing. -/
theorem select_cases (s : State) (b : BusId) :
    s.select b = s ∨
    (∃ h, (s.bus b).engine = .idle none ∧ s.dueProbe b = some h ∧
      s.select b = (s.setEntry h ((s.entry h).map fun e => { e with probe := .issued })).setBus b
        { s.bus b with engine := .idle (some (.probe h)) }) ∨
    (∃ t x, (s.bus b).engine = .idle none ∧ s.dueProbe b = none ∧ (s.bus b).chooseRecord = some (t, x) ∧
      s.select b = s.setBus b { x with engine := .idle (some (.record { t with progress := Progress.zero })) }) := by
  unfold State.select
  split
  · rename_i he
    split
    · rename_i h hd
      exact .inr (.inl ⟨h, he, hd, rfl⟩)
    · rename_i hd
      split
      · rename_i t x hc
        exact .inr (.inr ⟨t, x, he, hd, hc, rfl⟩)
      · exact .inl rfl
  · exact .inl rfl

theorem select_frame (s : State) (b : BusId) :
    ∃ bs dir, s.select b = { s with buses := bs, directory := dir } := by
  rcases select_cases s b with h | ⟨_, -, -, h⟩ | ⟨_, _, -, -, -, h⟩
  · exact ⟨_, _, h⟩
  · exact ⟨_, _, h⟩
  · exact ⟨_, _, h⟩

theorem enterIdle_frame (s : State) (b : BusId) :
    ∃ bs dir, s.enterIdle b = { s with buses := bs, directory := dir } := by
  obtain ⟨bs, dir, h⟩ := select_frame (s.rest b (.idle none)) b
  exact ⟨bs, dir, by rw [State.enterIdle, h]; rfl⟩

/-! ### Directory results -/

theorem quarantine_frame (s : State) (h : Handle) (e : Entry) (n : Nat) :
    ∃ st wl bs dir ps, s.quarantine h e n =
      { s with store := st, waitList := wl, buses := bs, directory := dir, polls := ps } := by
  unfold State.quarantine State.claimQuarantine
  dsimp only
  generalize hs : State.setBus _ _ _ = u
  obtain ⟨st, wl, hf⟩ := decideAside_foldl_frame .targetOut
    (((s.setEntry h (some { e with state := .quarantined, refusals := n, probe := .timing e.probeInterval
                                   changed := true })).bus e.bus).queue.filter fun t => t.handle == h && t.isHost) u
  rw [hf, ← hs]
  exact ⟨st, wl, _, _, _, rfl⟩

theorem release_frame (s : State) (h : Handle) (e : Entry) :
    ∃ dir ps, s.release h e = { s with directory := dir, polls := ps } :=
  ⟨_, _, rfl⟩

theorem addressAcknowledged_frame (s : State) (h : Handle) :
    ∃ dir, s.addressAcknowledged h = { s with directory := dir } := by
  unfold State.addressAcknowledged
  split
  · exact ⟨_, rfl⟩
  · split
    · exact ⟨_, rfl⟩
    · exact ⟨_, rfl⟩
    · exact ⟨_, rfl⟩
    · exact ⟨_, rfl⟩

theorem addressRefused_frame (s : State) (h : Handle) :
    ∃ st wl bs dir ps, s.addressRefused h =
      { s with store := st, waitList := wl, buses := bs, directory := dir, polls := ps } := by
  have keep (e : Option Entry) :
      ∃ st wl bs dir ps, s.setEntry h e =
        { s with store := st, waitList := wl, buses := bs, directory := dir, polls := ps } := ⟨_, _, _, _, _, rfl⟩
  unfold State.addressRefused
  split
  · exact ⟨_, _, _, _, _, rfl⟩
  · dsimp only
    split
    · exact ⟨_, _, _, _, _, rfl⟩
    all_goals
      split
      · exact keep _
      · exact quarantine_frame s h _ _

theorem probeResult_frame (s : State) (b : BusId) (h : Handle) (ack : AckBit) :
    ∃ dir ps, s.probeResult b h ack = { s with directory := dir, polls := ps } := by
  unfold State.probeResult
  split
  · exact ⟨_, _, rfl⟩
  · split
    · cases ack
      · exact release_frame s h _
      · exact ⟨_, _, rfl⟩
    · exact ⟨_, _, rfl⟩

/-! ### The engines' reports -/

theorem loseBus_frame (s : State) (b : BusId) (w : Work) (hearing : Option (List Bool)) :
    ∃ st wl bs dir ps, s.loseBus b w hearing =
      { s with store := st, waitList := wl, buses := bs, directory := dir, polls := ps } := by
  unfold State.loseBus
  dsimp only
  generalize hu : State.setBus _ b _ = u
  cases w with
  | record t =>
    obtain ⟨st, wl, bs, ps, h⟩ := reportLoss_frame u t
    exact ⟨st, wl, bs, _, ps, h.trans (by rw [← hu]; rfl)⟩
  | probe k =>
    obtain ⟨dir, h⟩ := giveUpProbe_frame u b k
    exact ⟨_, _, _, dir, _, h.trans (by rw [← hu]; rfl)⟩

theorem reportStop_frame (s : State) (b : BusId) (r : StopResult) (w : Work) :
    ∃ st wl bs ps, s.reportStop b r w = { s with store := st, waitList := wl, buses := bs, polls := ps } := by
  unfold State.reportStop
  split
  · generalize hu : State.setBus _ b _ = u
    obtain ⟨st, wl, ps, h⟩ := conclude_frame u _ .ok
    exact ⟨st, wl, _, ps, by rw [h, ← hu]; rfl⟩
  · obtain ⟨st, wl, ps, h⟩ := conclude_frame s _ _
    exact ⟨st, wl, _, ps, h⟩
  · exact reportRefusal_frame s _
  · exact ⟨_, _, _, _, rfl⟩
  · exact ⟨_, _, _, _, rfl⟩

/-- What a drive goes on as is written to its bus, and nothing else. -/
theorem drive_frame (s : State) (b : BusId) (p : DrivePhase) (w : Work) :
    ∃ x, s.drive b p w = s.setBus b x ∧ x.engine = .driving p w ∧ x.sending = s.byteSent b p w ∧
      x.clockOut = p.clockDrive ∧ x.monitor = (s.bus b).monitor.fallen := by
  refine ⟨_, rfl, ?_⟩
  unfold Bus.placeBit
  split <;> exact ⟨rfl, rfl, rfl, rfl⟩

/-- The byte sent is read from the record, the directory, the own address and the time base alone. -/
theorem byteSent_setBus (s : State) (b : BusId) (x : Bus) (p : DrivePhase) (w : Work)
    (h : x.ownAddress = (s.bus b).ownAddress) : (s.setBus b x).byteSent b p w = s.byteSent b p w := by
  cases p <;> simp [State.byteSent, State.addressSent, State.targetAddress, h]

/-- The address byte of work whose entry is in use, at another address than the bus's own. -/
theorem addressSent_entry {s : State} {x : Bus} {w : Work} {e : Entry} (h : s.entry w.handle = some e)
    (ho : x.ownAddress ≠ some e.address) : s.addressSent x w = addressByte e.address w.reads := by
  simp [State.addressSent, State.targetAddress, h, ho]

/-- An address the hub may send is one of 08h to 77h, and not its own (R30, R129). -/
theorem sendable_range (own : Option BusAddress) (k : Nat) :
    8 ≤ (sendable own k).toNat ∧ (sendable own k).toNat ≤ 119 ∧ own ≠ some (sendable own k) := by
  cases own with
  | none =>
    refine ⟨?_, ?_, fun h => (by cases h)⟩ <;> simp only [sendable, BitVec.toNat_ofNat] <;> omega
  | some a =>
    have hn : (sendable (some a) k).toNat = if a.toNat ≤ 8 + k % 111 then 9 + k % 111 else 8 + k % 111 := by
      simp only [sendable, BitVec.toNat_ofNat]
      split <;> omega
    refine ⟨by split at hn <;> omega, by split at hn <;> omega, fun h => ?_⟩
    have ha : a.toNat = (sendable (some a) k).toNat := congrArg BitVec.toNat (Option.some.inj h)
    split at hn <;> omega

/-- The bits of a byte are numbered from its most significant (R29). -/
theorem bitsOf_get (v : Byte) (place : Fin 8) : (bitsOf v)[place.val]? = some (v.getLsbD (7 - place.val)) := by
  fin_cases place <;> rfl

/-- What stands on data once the bit at `place` is placed: low for a 0 (R29). -/
theorem bitDrive_bit {x : Bus} {v : Byte} (h : x.sending = some v) (place : Fin 8)
    (hp : x.bitsPlaced = place.val + 1) :
    x.bitDrive = if v.getLsbD (7 - place.val) = true then .released else .low := by
  simp only [Bus.bitDrive, h, hp, bitsOf_get]
  cases v.getLsbD (7 - place.val) <;> simp

/-- With no byte to send, before its first bit and at its ninth pulse data is released (R29). -/
theorem bitDrive_released {x : Bus} (h : x.sending = none ∨ x.bitsPlaced = 0 ∨ 9 ≤ x.bitsPlaced) :
    x.bitDrive = .released := by
  unfold Bus.bitDrive
  split
  · rfl
  · rfl
  · rename_i v k hv hk
    have h8 : 8 ≤ k := by
      rcases h with h | h | h
      · rw [h] at hv; cases hv
      · omega
      · omega
    have hn : (bitsOf v)[k]? = none := List.getElem?_eq_none (by simpa [bitsOf] using h8)
    rw [hn]; rfl

/-- Without a byte to send no bit is placed. -/
theorem placeBit_none {x : Bus} (h : x.sending = none) : x.placeBit = x := by
  unfold Bus.placeBit
  rw [h]

/-- With a byte to send its next bit is placed, and after the eighth data is released (R29). -/
theorem placeBit_some {x : Bus} {v : Byte} (h : x.sending = some v) :
    (∀ place : Fin 8, x.bitsPlaced = place.val → x.placeBit =
      { x with bitsPlaced := place.val + 1
               dataOut := if v.getLsbD (7 - place.val) = true then .released else .low }) ∧
    (8 ≤ x.bitsPlaced → x.placeBit = { x with bitsPlaced := 9, dataOut := .released }) := by
  constructor
  · intro place hp
    have hn : min 9 (x.bitsPlaced + 1) = place.val + 1 := by omega
    simp only [Bus.placeBit, h, hn]
    rw [bitDrive_bit (v := v) rfl place rfl]
  · intro hp
    have hn : min 9 (x.bitsPlaced + 1) = 9 := by omega
    simp only [Bus.placeBit, h, hn]
    rw [bitDrive_released (.inr (.inr (Nat.le_refl 9)))]

/-- Placing a bit leaves all of a bus but the count of bits and data. -/
theorem placeBit_frame (x : Bus) : ∃ n d, x.placeBit = { x with bitsPlaced := n, dataOut := d } := by
  unfold Bus.placeBit
  split <;> exact ⟨_, _, rfl⟩

/-- The end of a start hold leaves all of a bus but its engine's phase, its outputs and the byte it sends. -/
theorem holdOver_frame (x : Bus) (byte : Work → Byte) :
    ∃ e c d v n, x.holdOver byte =
      { x with engine := e, clockOut := c, dataOut := d, sending := v, bitsPlaced := n } := by
  unfold Bus.holdOver
  split
  · obtain ⟨n, d, h⟩ := placeBit_frame _
    rw [h]
    exact ⟨_, _, _, _, _, rfl⟩
  all_goals exact ⟨_, _, _, _, _, rfl⟩

/-- The end of a start hold leaves the record or probe held. -/
theorem holdOver_record (x : Bus) (byte : Work → Byte) : (x.holdOver byte).engine.record? = x.engine.record? := by
  unfold Bus.holdOver
  split
  · rename_i w he
    obtain ⟨n, d, h⟩ := placeBit_frame _
    rw [h, he]
    cases w <;> rfl
  all_goals rfl

/-- What a half time's end leaves of a bus. -/
theorem halfOver_frame (x : Bus) (byte : Work → Byte) :
    ∃ e c d v n, x.halfOver byte =
      { x with engine := e, clockOut := c, dataOut := d, sending := v, bitsPlaced := n } := by
  unfold Bus.halfOver
  split
  · exact holdOver_frame x byte
  all_goals exact ⟨_, _, _, _, _, rfl⟩

theorem halfOver_record (x : Bus) (byte : Work → Byte) : (x.halfOver byte).engine.record? = x.engine.record? := by
  unfold Bus.halfOver
  split
  · exact holdOver_record x byte
  · rename_i kept n he
    rw [he]
    cases kept <;> rfl
  all_goals rfl

/-- A drive goes on with its outputs, byte and first bit as the phase has them (R31, R32, R44, R49, R51). -/
theorem drive_driveOn (s : State) (b : BusId) (p : DrivePhase) (w : Work) :
    s.drive b p w = s.setBus b (driveOn (s.bus b) p w (s.byteSent b p w)) := by
  unfold State.drive
  cases hb : s.byteSent b p w with
  | none =>
    rw [placeBit_none (by simpa using hb)]
    congr 1
    cases p with
    | receive g =>
      rcases g with _ | _ | _ <;>
        simp [driveOn, DrivePhase.clockDrive, DrivePhase.dataDrive, ackDrive, Monitor.fallen, clockFell]
    | _ => simp [driveOn, DrivePhase.clockDrive, DrivePhase.dataDrive, Monitor.fallen, clockFell]
  | some v =>
    rw [(placeBit_some (v := v) rfl).1 0 rfl]
    congr 1
    cases p with
    | address => cases h : v.getLsbD 7 <;> simp_all [driveOn, DrivePhase.clockDrive, Monitor.fallen, clockFell]
    | send => cases h : v.getLsbD 7 <;> simp_all [driveOn, DrivePhase.clockDrive, Monitor.fallen, clockFell]
    | _ => simp [State.byteSent] at hb

/-- As a start hold ends the bus is in ADDRESS with the first bit of the address byte placed (R44, R46). -/
theorem holdOver_start {x : Bus} {w : Work} (h : x.engine = .driving .start w) (byte : Work → Byte) :
    x.holdOver byte = inAddress x w (byte w) := by
  unfold Bus.holdOver
  rw [h]
  dsimp only
  rw [(placeBit_some (v := byte w) rfl).1 0 rfl]
  simp [inAddress, bitOnData]

theorem addressByte_toNat (a : BusAddress) (read : Bool) :
    (addressByte a read).toNat = 2 * a.toNat + (if read then 1 else 0) := by
  have := a.isLt
  cases read <;> simp [addressByte, byteOf, BitVec.toNat_ofNat] <;> omega

/-- The address byte sent is one for the work (R30, R46, R53, R90, R129; log entry 26). -/
theorem addresses_sent (s : State) (b : BusId) (w : Work) : s.addresses b w (s.addressSent (s.bus b) w) := by
  unfold State.addresses
  intro own direction
  have hd : direction = if w.reads then 1 else 0 := by
    cases w with
    | probe h => rfl
    | record t =>
      cases hg : t.segments[t.progress.segmentInHand]? with
      | none => simp [direction, Work.segment?, Work.reads, hg]
      | some g => cases g <;> simp [direction, Work.segment?, Work.reads, hg]
  refine ⟨fun e he ho => ?_, fun hn => ?_⟩
  · rw [addressSent_entry he ho, addressByte_toNat, hd]
  · have ht : s.targetAddress (s.bus b).ownAddress w = sendable own (Config.absentAddress w.handle.val s.time) := by
      unfold State.targetAddress
      cases he : s.entry w.handle with
      | none => rfl
      | some e => exact if_pos (hn e he)
    obtain ⟨h1, h2, h3⟩ := sendable_range own (Config.absentAddress w.handle.val s.time)
    rw [hd]
    simp only [State.addressSent, ht, addressByte_toNat]
    refine ⟨by cases w.reads <;> simp <;> omega, by omega, by cases w.reads <;> simp <;> omega, fun a ha h => h3 ?_⟩
    rw [ha] at h ⊢
    refine congrArg some (BitVec.eq_of_toNat_eq ?_)
    rw [← h]
    cases w.reads <;> simp <;> omega

/-- What a reception goes on as is written to its bus, and nothing else. -/
theorem answer_frame (s : State) (b : BusId) (r : Reception) (data : Drive) :
    s.answer b r data = s.setBus b
      { s.bus b with engine := .answering r, dataOut := data, sending := r.byteGiven, bitsPlaced := 0 } :=
  rfl

/-- A loss at a bit: the byte is being sent with that bit 1, and the bits heard are those before it and a 0. -/
theorem bitsLost_some {sent : Option Byte} {place : Fin 8} {bits : List Bool} :
    bitsLost sent place = some bits ↔
      ∃ v, sent = some v ∧ (bitsOf v)[place.val]? = some true ∧ bits = (bitsOf v).take place.val ++ [false] := by
  unfold bitsLost
  split
  · split
    · rename_i v h
      simp [h, eq_comm]
    · rename_i v h
      simp [h]
  · simp

/-- A clearing that finds clock high goes on in CLEARING: to its start with data high, to one pulse more with data low, and
to its failure after the ninth. -/
theorem clearingClockHigh_cases (x : Bus) (kept : Option Txn) (n : Nat) (dataHigh : Bool) :
    (dataHigh = true ∧ x.clearingClockHigh kept n dataHigh =
      { x with engine := .clearing kept n .starting, clockOut := .released, dataOut := .low, monitor := x.monitor.start
               stretchTimer := 0 }) ∨
    (dataHigh = false ∧ n < 9 ∧ x.clearingClockHigh kept n dataHigh =
      { x with engine := .clearing kept (n + 1) .waiting, clockOut := .low, monitor := x.monitor.fallen
               stretchTimer := 0 }) ∨
    (dataHigh = false ∧ 9 ≤ n ∧ x.clearingClockHigh kept n dataHigh =
      { x with engine := .clearing kept n .exhausted, clockOut := .released, monitor := x.monitor.fallen
               stretchTimer := 0 }) := by
  cases dataHigh
  · by_cases h : n < 9
    · exact .inr (.inl ⟨rfl, h, by simp [Bus.clearingClockHigh, h]⟩)
    · exact .inr (.inr ⟨rfl, Nat.not_lt.mp h, by simp [Bus.clearingClockHigh, h]⟩)
  · exact .inl ⟨rfl, by simp [Bus.clearingClockHigh]⟩

/-! ### The link -/

/-- The room check drops a frame, takes it into the intake, or answers NO_ROOM. -/
theorem roomCheck_cases (s : State) (r : Request) :
    (s.freeSlots = 0 ∧ s.roomCheck r = s) ∨
    (s.freeSlots ≠ 0 ∧ s.intake.length < Config.intakePlaces ∧ s.roomCheck r = { s with intake := s.intake ++ [r] }) ∨
    (s.freeSlots ≠ 0 ∧ Config.intakePlaces ≤ s.intake.length ∧
      s.roomCheck r = { s with filled := s.filled ++
        [{ frame := { kind := r.kind + 0x80#8, tag := r.tag, body := [ReplyCode.noRoom.value, 0x00#8] }
           mark := .plain }] }) := by
  unfold State.roomCheck
  split
  · exact .inl ⟨by assumption, rfl⟩
  · split
    · exact .inr (.inl ⟨by assumption, by assumption, rfl⟩)
    · exact .inr (.inr ⟨by assumption, Nat.not_lt.mp (by assumption), rfl⟩)

theorem roomCheck_frame (s : State) (r : Request) :
    ∃ i f, s.roomCheck r = { s with intake := i, filled := f } := by
  rcases roomCheck_cases s r with ⟨-, h⟩ | ⟨-, -, h⟩ | ⟨-, -, h⟩
  · exact ⟨_, _, h⟩
  · exact ⟨_, _, h⟩
  · exact ⟨_, _, h⟩

theorem takeFrame_frame (s : State) (r : Request) :
    ∃ i f c d, s.takeFrame r = { s with intake := i, filled := f, cache := c, discards := d } := by
  unfold State.takeFrame
  split
  · obtain ⟨i, f, h⟩ := roomCheck_frame s r
    exact ⟨i, f, _, _, h⟩
  · split
    · exact ⟨_, _, _, _, rfl⟩
    · split
      · split
        · split
          · exact ⟨_, _, _, _, rfl⟩
          · exact ⟨_, _, _, _, rfl⟩
        · obtain ⟨i, f, h⟩ := roomCheck_frame { s with cache := s.cache.filter fun c => c.tag != r.tag } r
          exact ⟨i, f, _, _, h⟩
      · obtain ⟨i, f, h⟩ := roomCheck_frame s r
        exact ⟨i, f, _, _, h⟩

theorem byteEffect_frame (s : State) (x : ByteEffect) :
    ∃ i f c d, s.byteEffect x = { s with intake := i, filled := f, cache := c, discards := d } := by
  cases x with
  | nothing => exact ⟨_, _, _, _, rfl⟩
  | discardKind => exact ⟨_, _, _, _, rfl⟩
  | discardLength => exact ⟨_, _, _, _, rfl⟩
  | discardCheck => exact ⟨_, _, _, _, rfl⟩
  | good r => exact takeFrame_frame s r

/-! ### The passing of time -/

/-- Time changes no queue, no work held and no record: only the start hold's phase, the outputs and the timers. -/
theorem Bus.pass_frame (x : Bus) (byte : Work → Byte) (us ms : Nat) :
    ∃ e c d v n m k, x.pass byte us ms =
      { x with engine := e, clockOut := c, dataOut := d, sending := v, bitsPlaced := n, monitor := m
               stretchTimer := k } := by
  obtain ⟨e, c, d, v, n, h⟩ := halfOver_frame x byte
  unfold Bus.pass
  dsimp only
  split
  · rw [h]; split <;> exact ⟨_, _, _, _, _, _, _, rfl⟩
  · rw [h]; split <;> exact ⟨_, _, _, _, _, _, _, rfl⟩
  all_goals exact ⟨_, _, _, _, _, _, _, rfl⟩

/-- Time moves no record. -/
theorem Bus.pass_records (x : Bus) (byte : Work → Byte) (us ms : Nat) : (x.pass byte us ms).records = x.records := by
  have hr := halfOver_record x byte
  obtain ⟨e, c, d, v, n, h⟩ := halfOver_frame x byte
  unfold Bus.pass
  dsimp only
  split
  · by_cases hu : us = 0
    · simp only [hu, if_true]; rfl
    · simp only [hu, if_false, h] at hr ⊢; simp only [Bus.records, Bus.queue, hr]
  · by_cases hu : us = 0
    · simp only [hu, if_true]; rfl
    · simp only [hu, if_false, h] at hr ⊢; simp only [Bus.records, Bus.queue, hr]
  all_goals rfl

theorem bus_pass (s : State) (us : Nat) (b : BusId) :
    (s.pass us).bus b = (s.bus b).pass (s.addressSent (s.bus b)) us (s.msIn us) := by
  simp [State.pass, State.bus, mapTable_getElem]

theorem records_pass (s : State) (us : Nat) : (s.pass us).records = s.records := by
  simp only [State.records, bus_pass, Bus.pass_records]

end Sys2Proof.Machine
end

