-- ==== Sys2Proof/Laws/PerInstr.lean ====
section
/-! SUPPORT. A law of every command as syntax: a well-formed request carries a body that a frame can hold, at most 240 bytes
(Table 8-2), and one whose body is longer is ill formed. One lemma for each constructor. -/

namespace Sys2Proof.Laws

/-- The body of a well-formed command fits a frame, and a command whose body does not fit is ill formed. -/
def BodyFits.Statement (i : Instr) : Prop :=
  ∀ b, i.body? = some b → (i.wellFormed = true → b.length ≤ 240) ∧ (240 < b.length → i.wellFormed = false)

/-- The law for a command whose body is known. -/
theorem bodyFits_of_body {i : Instr} {b : List Byte} (h : i.body? = some b) : BodyFits.Statement i := by
  intro c hc
  obtain rfl : b = c := Option.some.inj (h.symm.trans hc)
  constructor
  · intro hw
    have hf : bodyFits b = true := by
      have := hw
      simp only [Instr.wellFormed, h, Bool.and_eq_true] at this
      exact this.1.1
    exact of_decide_eq_true hf
  · intro hl
    have hf : bodyFits b = false := decide_eq_false (Nat.not_le.mpr hl)
    simp [Instr.wellFormed, h, hf]

/-- The law for a command that carries no body. -/
theorem bodyFits_of_none {i : Instr} (h : i.body? = none) : BodyFits.Statement i := by
  intro c hc
  rw [h] at hc
  cases hc

theorem BodyFits.hello (tag : Byte) (body : List Byte) : BodyFits.Statement (.hello tag body) :=
  bodyFits_of_body rfl
theorem BodyFits.hubReset (tag : Byte) (body : List Byte) : BodyFits.Statement (.hubReset tag body) :=
  bodyFits_of_body rfl
theorem BodyFits.attentionMask (tag : Byte) (body : List Byte) : BodyFits.Statement (.attentionMask tag body) :=
  bodyFits_of_body rfl
theorem BodyFits.linkConfig (tag : Byte) (body : List Byte) : BodyFits.Statement (.linkConfig tag body) :=
  bodyFits_of_body rfl
theorem BodyFits.linkStatus (tag : Byte) (body : List Byte) : BodyFits.Statement (.linkStatus tag body) :=
  bodyFits_of_body rfl
theorem BodyFits.submit (tag : Byte) (body : List Byte) : BodyFits.Statement (.submit tag body) :=
  bodyFits_of_body rfl
theorem BodyFits.cancel (tag : Byte) (body : List Byte) : BodyFits.Statement (.cancel tag body) :=
  bodyFits_of_body rfl
theorem BodyFits.query (tag : Byte) (body : List Byte) : BodyFits.Statement (.query tag body) :=
  bodyFits_of_body rfl
theorem BodyFits.flush (tag : Byte) (body : List Byte) : BodyFits.Statement (.flush tag body) :=
  bodyFits_of_body rfl
theorem BodyFits.fetch (tag : Byte) (body : List Byte) : BodyFits.Statement (.fetch tag body) :=
  bodyFits_of_body rfl
theorem BodyFits.busConfig (tag : Byte) (body : List Byte) : BodyFits.Statement (.busConfig tag body) :=
  bodyFits_of_body rfl
theorem BodyFits.busStatus (tag : Byte) (body : List Byte) : BodyFits.Statement (.busStatus tag body) :=
  bodyFits_of_body rfl
theorem BodyFits.busReset (tag : Byte) (body : List Byte) : BodyFits.Statement (.busReset tag body) :=
  bodyFits_of_body rfl
theorem BodyFits.targetAdd (tag : Byte) (body : List Byte) : BodyFits.Statement (.targetAdd tag body) :=
  bodyFits_of_body rfl
theorem BodyFits.targetRemove (tag : Byte) (body : List Byte) : BodyFits.Statement (.targetRemove tag body) :=
  bodyFits_of_body rfl
theorem BodyFits.targetRelease (tag : Byte) (body : List Byte) : BodyFits.Statement (.targetRelease tag body) :=
  bodyFits_of_body rfl
theorem BodyFits.targetQuery (tag : Byte) (body : List Byte) : BodyFits.Statement (.targetQuery tag body) :=
  bodyFits_of_body rfl
theorem BodyFits.targetChanges (tag : Byte) (body : List Byte) : BodyFits.Statement (.targetChanges tag body) :=
  bodyFits_of_body rfl
theorem BodyFits.pollSet (tag : Byte) (body : List Byte) : BodyFits.Statement (.pollSet tag body) :=
  bodyFits_of_body rfl
theorem BodyFits.pollOff (tag : Byte) (body : List Byte) : BodyFits.Statement (.pollOff tag body) :=
  bodyFits_of_body rfl
theorem BodyFits.pollRead (tag : Byte) (body : List Byte) : BodyFits.Statement (.pollRead tag body) :=
  bodyFits_of_body rfl
theorem BodyFits.listenSet (tag : Byte) (body : List Byte) : BodyFits.Statement (.listenSet tag body) :=
  bodyFits_of_body rfl
theorem BodyFits.pageSet (tag : Byte) (body : List Byte) : BodyFits.Statement (.pageSet tag body) :=
  bodyFits_of_body rfl
theorem BodyFits.inboundRead (tag : Byte) (body : List Byte) : BodyFits.Statement (.inboundRead tag body) :=
  bodyFits_of_body rfl
theorem BodyFits.unknownKind (kind tag : Byte) (body : List Byte) : BodyFits.Statement (.unknownKind kind tag body) :=
  bodyFits_of_body rfl
theorem BodyFits.byteReceived (value : Byte) : BodyFits.Statement (.byteReceived value) :=
  bodyFits_of_none rfl
theorem BodyFits.gapTimerExpiry : BodyFits.Statement .gapTimerExpiry :=
  bodyFits_of_none rfl
theorem BodyFits.frameSent : BodyFits.Statement .frameSent :=
  bodyFits_of_none rfl
theorem BodyFits.powerOn : BodyFits.Statement .powerOn :=
  bodyFits_of_none rfl
theorem BodyFits.resetPinAssert : BodyFits.Statement .resetPinAssert :=
  bodyFits_of_none rfl
theorem BodyFits.resetPinRelease : BodyFits.Statement .resetPinRelease :=
  bodyFits_of_none rfl
theorem BodyFits.deadlineExpiry (ticket : Nat) : BodyFits.Statement (.deadlineExpiry ticket) :=
  bodyFits_of_none rfl
theorem BodyFits.retryGapEnd (name : RecordName) : BodyFits.Statement (.retryGapEnd name) :=
  bodyFits_of_none rfl
theorem BodyFits.pollPeriodExpiry (index : PollIndex) : BodyFits.Statement (.pollPeriodExpiry index) :=
  bodyFits_of_none rfl
theorem BodyFits.probeTimerExpiry (handle : Handle) : BodyFits.Statement (.probeTimerExpiry handle) :=
  bodyFits_of_none rfl
theorem BodyFits.startSeen (bus : BusId) (change : SensedChange) : BodyFits.Statement (.startSeen bus change) :=
  bodyFits_of_none rfl
theorem BodyFits.stopSeen (bus : BusId) : BodyFits.Statement (.stopSeen bus) :=
  bodyFits_of_none rfl
theorem BodyFits.busFree (bus : BusId) : BodyFits.Statement (.busFree bus) :=
  bodyFits_of_none rfl
theorem BodyFits.stuck (bus : BusId) : BodyFits.Statement (.stuck bus) :=
  bodyFits_of_none rfl
theorem BodyFits.startMade (bus : BusId) : BodyFits.Statement (.startMade bus) :=
  bodyFits_of_none rfl
theorem BodyFits.addressByteAnswered (bus : BusId) (ack : AckBit) : BodyFits.Statement (.addressByteAnswered bus ack) :=
  bodyFits_of_none rfl
theorem BodyFits.writeByteAnswered (bus : BusId) (ack : AckBit) : BodyFits.Statement (.writeByteAnswered bus ack) :=
  bodyFits_of_none rfl
theorem BodyFits.readByteTaken (bus : BusId) (part : ReadPart) : BodyFits.Statement (.readByteTaken bus part) :=
  bodyFits_of_none rfl
theorem BodyFits.repeatedStartMade (bus : BusId) : BodyFits.Statement (.repeatedStartMade bus) :=
  bodyFits_of_none rfl
theorem BodyFits.stopReleased (bus : BusId) (dataRose : Bool) : BodyFits.Statement (.stopReleased bus dataRose) :=
  bodyFits_of_none rfl
theorem BodyFits.arbitrationLost (bus : BusId) (cause : LossCause) : BodyFits.Statement (.arbitrationLost bus cause) :=
  bodyFits_of_none rfl
theorem BodyFits.probeAnswered (bus : BusId) (ack : AckBit) : BodyFits.Statement (.probeAnswered bus ack) :=
  bodyFits_of_none rfl
theorem BodyFits.stall (bus : BusId) : BodyFits.Statement (.stall bus) :=
  bodyFits_of_none rfl
theorem BodyFits.cleared (bus : BusId) : BodyFits.Statement (.cleared bus) :=
  bodyFits_of_none rfl
theorem BodyFits.clearingFailed (bus : BusId) : BodyFits.Statement (.clearingFailed bus) :=
  bodyFits_of_none rfl
theorem BodyFits.addressByteHeard (bus : BusId) (value : Byte) : BodyFits.Statement (.addressByteHeard bus value) :=
  bodyFits_of_none rfl
theorem BodyFits.writeInByte (bus : BusId) (value : Byte) : BodyFits.Statement (.writeInByte bus value) :=
  bodyFits_of_none rfl
theorem BodyFits.readOutByte (bus : BusId) (ack : AckBit) : BodyFits.Statement (.readOutByte bus ack) :=
  bodyFits_of_none rfl

end Sys2Proof.Laws
end

