-- ==== Sys2Proof/Tests/Slice0.lean ====
section
/-! SUPPORT. Tests on small states: well-formedness, the meaning of each command on an example of the manual or worked
by hand from its rules, and, for each statement with hypotheses, states and operands that meet them. -/

namespace Sys2Proof.Tests

open Sys2Proof Sys2Proof.Machine

/-! ### Small states -/

/-- The notice that follows a reset (R159). -/
def resetNotice : Frame :=
  { kind := 0xFF#8, tag := 0x00#8, body := [0x01#8, 0x00#8, 0x00#8, 0x00#8, 0x00#8, 0x00#8] }

/-- The hub while it sends its first notice. -/
def quiet : State := State.reset

/-- The hub with its first notice sent. -/
def silent : State := { quiet with transmitter := .idle }

/-- The state a command answers, and the state before it where it stops. -/
def after (c : Instr) (s : State) : State := match exec c s with
  | .next t => t
  | .fault _ => s
  | .refused _ => s

/-- The request is at the head of the intake. -/
def asking (kind : Byte) (body : List Byte) (s : State) : State :=
  { s with intake := [{ kind := kind, tag := 0x07#8, body := body }] }

/-- The body of the reply placed last. -/
def lastReply (s : State) : List Byte := match s.filled.getLast? with
  | some r => r.frame.body
  | none => []

/-- Bus 0 with this engine, its line FREE. -/
def bus0 (e : Engine) : Bus :=
  { Bus.reset true with engine := e, monitor := { Monitor.reset true with line := .free, freeTimer := 50, freeRaised := true } }

/-- Bus 0 as its engine drives: the line is HELD. -/
def bus0Held (e : Engine) : Bus :=
  { Bus.reset false with engine := e }

/-- A PRESENT target on bus 0 at address 20h. -/
def target : Entry :=
  { state := .present, bus := 0, address := 0x20#7, attempts := 3, retryGap := 10, threshold := 4,
    probeInterval := 1000, refusals := 0, probe := .none, changed := false }

/-- The hub with the target at handle 1 and bus 0 as given. -/
def hub (x : Bus) : State := (quiet.setEntry 1 (some target)).setBus 0 x

/-- Ticket 1: one byte to write, two to read, with handle 1. -/
def job : Txn :=
  { origin := .host 1, handle := 1, bus := 0, cls := .routine, segments := [.write [0x10#8], .read 2],
    deadline := none, attemptsLeft := 3, attemptsUsed := 0, lostArbitrations := 0, notBefore := none,
    cancelPending := false, progress := Progress.zero }

/-- Poll 2 of handle 1: two bytes to read. -/
def watch : Poll :=
  { state := .active 50, handle := 1, writeBytes := [], readLength := 2, mask := [0xFF#8, 0xFF#8], period := 100,
    policy := .change, cls := .routine, lastValue := none, lastOutcome := none, lateCount := 0, failCount := 0,
    changed := false }

/-- The record of an OK result of a ticket with this many read bytes. -/
def okResult (ticket n : Nat) : Completion :=
  { ticket := ticket, handle := 1, outcome := .ok, attemptsUsed := 1, lostArbitrations := 0, segmentReached := 1,
    bytesDone := n, readData := List.replicate n 0x00#8 }

/-- A reception in progress. -/
def hearingWrite : Reception :=
  { kind := .write, broadcast := false, truncated := false, count := 0, data := [], pageCopy := [], closed := false }

/-! ### Well-formedness: one ill-formed term for each check -/

theorem test_long_body_ill_formed : (Instr.submit 0x07#8 (List.replicate 241 0x00#8)).wellFormed = false := by
  have h : bodyFits (List.replicate 241 0x00#8) = false := decide_eq_false (by rw [List.length_replicate]; decide)
  rw [Instr.wellFormed]
  simp only [Instr.body?, h, Bool.false_and]

theorem test_longest_body_well_formed : (Instr.submit 0x07#8 (List.replicate 240 0x00#8)).wellFormed = true := by
  have h : bodyFits (List.replicate 240 0x00#8) = true := decide_eq_true (by rw [List.length_replicate]; decide)
  rw [Instr.wellFormed]
  simp only [Instr.body?, h, Instr.kindFits, Instr.nameFits, Bool.and_self]

theorem test_listed_kind_ill_formed : (Instr.unknownKind 0x14#8 0x07#8 []).wellFormed = false := by decide

theorem test_reply_kind_ill_formed : (Instr.unknownKind 0x80#8 0x07#8 []).wellFormed = false := by decide

theorem test_unknown_kind_well_formed : (Instr.unknownKind 0x7F#8 0x07#8 []).wellFormed = true := by decide

theorem test_ticket_zero_ill_formed : (Instr.deadlineExpiry 0).wellFormed = false := by decide

theorem test_large_ticket_ill_formed : (Instr.retryGapEnd (.host 65536)).wellFormed = false := by decide

theorem test_no_word_spells_a_command : decodeTableWord 8 1 = none := by decide

/-! ### The host link -/

/-- The check of the nine digits is 29B1h (section 8.2). -/
theorem test_check_of_nine_digits :
    checkOf [0x31#8, 0x32#8, 0x33#8, 0x34#8, 0x35#8, 0x36#8, 0x37#8, 0x38#8, 0x39#8] = 0x29B1#16 := by decide +kernel

theorem test_byte_received_sync : (after (.byteReceived 0xA9#8) quiet).receiver.state = .sync := by decide

theorem test_byte_received_kind_over_7F :
    let t := after (.byteReceived 0xFF#8) { quiet with receiver := { Receiver.reset with state := .header } }
    t.discards.kind = 1 ∧ t.receiver.state = .hunt := by decide

theorem test_gap_timer_expiry :
    let t := after .gapTimerExpiry { quiet with receiver := { Receiver.reset with state := .body, gapTimer := 5 } }
    t.discards.gap = 1 ∧ t.receiver.state = .hunt ∧ t.time = 16000 := by decide

theorem test_frame_sent_switches_rate :
    let t := after .frameSent
      { quiet with pendingRate := some .r921600,
                   transmitter := .reply { frame := resetNotice, mark := .switchPoint } }
    t.rate = .r921600 ∧ t.pendingRate = none ∧ t.transmitter = .idle := by decide

theorem test_link_config :
    let t := after (.linkConfig 0x07#8 [0x03#8, 0x84#8, 0x00#8]) (asking 0x04#8 [0x03#8, 0x84#8, 0x00#8] quiet)
    t.pendingRate = some .r230400 ∧ lastReply t = [0x00#8, 0x06#8, 0x03#8, 0x84#8, 0x00#8] := by decide

theorem test_link_status_length :
    (lastReply (after (.linkStatus 0x07#8 []) (asking 0x05#8 [] quiet))).length = 20 := by decide

/-! ### The handler and the attention unit -/

theorem test_hello :
    let t := after (.hello 0x07#8 []) (asking 0x01#8 [] quiet)
    t.restarted = false ∧ t.announced = FlagSet.empty ∧
    lastReply t = [0x00#8, 0x06#8, 0xA4#8, 0x01#8, 0x01#8, 0x04#8, 0x40#8, 0x30#8, 0x10#8, 0x18#8, 0x10#8, 0x08#8,
      0x08#8] := by decide

theorem test_hello_with_body :
    lastReply (after (.hello 0x07#8 [0x00#8]) (asking 0x01#8 [0x00#8] quiet)) = [0x03#8, 0x06#8] := by decide

theorem test_hub_reset_halts : (after (.hubReset 0x07#8 []) (asking 0x02#8 [] quiet)).handler = .halted := by decide

theorem test_attention_mask :
    let t := after (.attentionMask 0x07#8 [0x3D#8]) (asking 0x03#8 [0x3D#8] quiet)
    t.mask = { FlagSet.all with results := false } ∧ lastReply t = [0x00#8, 0x06#8, 0x3D#8] := by decide

theorem test_unknown_kind :
    lastReply (after (.unknownKind 0x7F#8 0x07#8 []) (asking 0x7F#8 [] quiet)) = [0x02#8, 0x06#8] := by decide

theorem test_power_on_announces_restarted :
    (after .powerOn State.reset).transmitter = .notice resetNotice := by decide

/-- R159: the first frame after State.reset is the notice, whatever comes first. -/
theorem test_first_frame_is_the_notice :
    (after (.hello 0x07#8 []) State.reset).transmitter = .notice resetNotice := by decide

theorem test_reset_pin :
    (after .resetPinAssert quiet).transmitter = .idle ∧
    (after .resetPinRelease (after .resetPinAssert quiet)).transmitter = .notice resetNotice := by decide

/-! ### The pool and the result store -/

/-- The sizing example of section 10.7: a body of 11 bytes, and the same without its deadline bytes. -/
def exampleBody : List Byte :=
  [0x09#8, 0x01#8, 0x01#8, 0x00#8, 0x32#8, 0x02#8, 0x00#8, 0x01#8, 0x20#8, 0x01#8, 0x02#8]

theorem test_submit_example_fields :
    submitFields exampleBody =
      some { handle := 0x09#8, cls := 0x01#8, deadline := some 50, attempts := none,
             segments := [{ direction := 0x00#8, length := 0x01#8, bytes := [0x20#8] },
                          { direction := 0x01#8, length := 0x02#8, bytes := [] }] } ∧
    submitFields [0x09#8, 0x01#8, 0x01#8, 0x02#8, 0x00#8, 0x01#8, 0x20#8, 0x01#8, 0x02#8] = none := by decide

/-- Section 11.1: the first SUBMIT is issued ticket 1 and is ACTIVE at once on an IDLE engine. -/
theorem test_submit_is_selected :
    let body := [0x01#8, 0x00#8, 0x00#8, 0x02#8, 0x00#8, 0x01#8, 0x10#8, 0x01#8, 0x02#8]
    let t := after (.submit 0x07#8 body) (asking 0x10#8 body (hub (bus0 (.idle none))))
    lastReply t = [0x00#8, 0x06#8, 0x00#8, 0x01#8] ∧ (t.bus 0).engine = .idle (some (.record job)) ∧
    t.nextTicket = 2 := by decide

/-- Section 11.1: a CANCEL of the WAITING record decides it CANCELLED with attempts used 1, reply state QUEUED. -/
theorem test_cancel_waiting :
    let t := after (.cancel 0x07#8 [0x00#8, 0x01#8])
      (asking 0x11#8 [0x00#8, 0x01#8]
        (hub { bus0 (.idle none) with routine := [{ job with attemptsUsed := 1, notBefore := some 10 }] }))
    lastReply t = [0x00#8, 0x06#8, 0x01#8] ∧ (t.bus 0).routine = [] ∧
    t.store.map (fun c => (c.outcome, c.attemptsUsed, c.bytesDone)) = [(.cancelled, 1, 0)] := by decide

/-- Section 11.1: QUERY answers WAITING with position 1. -/
theorem test_query_waiting :
    lastReply (after (.query 0x07#8 [0x00#8, 0x01#8])
      (asking 0x12#8 [0x00#8, 0x01#8]
        (hub { bus0 (.idle none) with routine := [{ job with notBefore := some 10 }] }))) =
      [0x00#8, 0x06#8, 0x02#8, 0x01#8] := by decide

/-- Section 11.2: FLUSH with a full store decides the HOST records in queue order onto the wait list. -/
theorem test_flush_full_store :
    let x : Bus := { bus0 (.occupied none) with
      urgent := [{ job with origin := .host 131, cls := .urgent }]
      routine := [{ job with origin := .host 132, notBefore := some 5 }, { job with origin := .poll 2 false },
                  { job with origin := .host 133 }] }
    let s := { hub x with store := (List.range 24).map fun k => okResult (101 + k) 0 }
    let t := after (.flush 0x07#8 [0x00#8]) (asking 0x13#8 [0x00#8] s)
    lastReply t = [0x00#8, 0x06#8, 0x03#8] ∧ t.waitList.map (fun d => d.record.ticket?) = [some 131, some 132, some 133] ∧
    (t.bus 0).queue.length = 1 := by decide

/-- Section 4.8: FETCH with max 8 takes tickets 112, 115 and 113, and the two waiting records move in. -/
theorem test_fetch_example :
    let s := { quiet with
      store := [okResult 112 64, okResult 115 64, okResult 113 64, okResult 118 20, okResult 119 0]
        ++ (List.range 19).map fun k => okResult (120 + k) 0
      waitList := [{ record := { job with origin := .host 140 }, outcome := .ok },
                   { record := { job with origin := .host 141 }, outcome := .ok }] }
    let t := after (.fetch 0x07#8 [0x08#8]) (asking 0x14#8 [0x08#8] s)
    t.store.length = 23 ∧ t.store.head?.map Completion.ticket = some 118 ∧
    t.store.getLast?.map Completion.ticket = some 141 ∧ t.waitList = [] ∧
    (lastReply t).take 4 = [0x00#8, 0x06#8, 0x03#8, 0x17#8] := by decide

theorem test_deadline_expiry :
    let t := after (.deadlineExpiry 1) (hub { bus0 (.occupied none) with routine := [{ job with deadline := some 30 }] })
    t.store.map Completion.outcome = [.expired] ∧ t.time = 30000 := by decide

theorem test_retry_gap_end :
    let t := after (.retryGapEnd (.host 1)) (hub { bus0 (.idle none) with routine := [{ job with notBefore := some 10 }] })
    (t.bus 0).engine = .idle (some (.record job)) ∧ t.time = 10000 := by decide

/-! ### The engines -/

theorem test_bus_config_enables :
    let body := [0x00#8, 0x01#8, 0x02#8, 0x05#8, 0x19#8, 0x23#8]
    let t := after (.busConfig 0x07#8 body) (asking 0x20#8 body quiet)
    (t.bus 0).engine = .occupied none ∧ (t.bus 0).speed = .fastPlus := by decide

theorem test_bus_status_lowers_events :
    let t := after (.busStatus 0x07#8 [0x00#8])
      (asking 0x21#8 [0x00#8] (hub { bus0 .faulted with pendingFaulted := 1 }))
    (t.bus 0).pendingFaulted = 0 ∧ (lastReply t).length = 19 ∧ (lastReply t).take 3 = [0x00#8, 0x06#8, 0x06#8] := by decide

theorem test_bus_reset_abandons :
    let t := after (.busReset 0x07#8 [0x00#8]) (asking 0x22#8 [0x00#8] (hub (bus0Held (.driving .send (.record job)))))
    t.store.map Completion.outcome = [.abandoned] ∧ (t.bus 0).engine = .clearing none 0 .waiting := by decide

theorem test_start_seen_gives_the_work_back :
    let t := after (.startSeen 0 .dataFell) (hub (bus0 (.idle (some (.record job)))))
    (t.bus 0).engine = .occupied (some []) ∧ (t.bus 0).routine = [job] := by decide

theorem test_stop_seen : ((after (.stopSeen 0) (hub (bus0Held (.occupied (some []))))).bus 0).engine = .idle none := by decide

theorem test_bus_free_recovers :
    let t := after (.busFree 0) (hub (bus0Held .faulted))
    (t.bus 0).engine = .idle none ∧ (t.bus 0).pendingRecovered = 1 ∧ t.time = 50 := by decide

theorem test_stuck : ((after (.stuck 0) (hub (bus0Held (.occupied none)))).bus 0).clearings = 1 := by decide

theorem test_start_made :
    let t := after (.startMade 0) (hub (bus0 (.idle (some (.record { job with cls := .urgent })))))
    (t.bus 0).urgentRun = 1 ∧ (t.bus 0).monitor.line = .held ∧ (t.bus 0).dataOut = .low ∧
    (t.bus 0).clockOut = .released := by decide

/-- R44, R46 and R90: clock falls after the start hold, and the address byte is of the entry as it is then. -/
theorem test_address_follows_the_start :
    let s := hub (bus0Held (.driving .start (.record job)))
    let fallen (e : Entry) : Bus := (after (.startSeen 0 (.clockFell false)) (s.setEntry 1 (some e))).bus 0
    (fallen target).engine = .driving .address (.record job) ∧ (fallen target).clockOut = .low ∧
    (fallen { target with address := 0x50#7 }).sending = some 0xA0#8 ∧
    (fallen { target with address := 0x50#7 }).dataOut = .released := by decide

/-- R32 and R44: with the time that passes the start hold ends, and then the first low half. -/
theorem test_time_ends_the_start_hold :
    let s := hub (bus0Held (.driving .start (.record job)))
    ((s.pass 1).bus 0).engine = .driving .address (.record job) ∧ ((s.pass 1).bus 0).clockOut = .low ∧
    (((s.pass 1).pass 1).bus 0).clockOut = .released := by decide

/-- R129: a probe sends an address of 08h to 77h, and never the own address of its bus. -/
theorem test_own_address_is_not_sent :
    (List.range 112).map (fun k => (sendable (some 0x08#7) k).toNat) = (List.range 111).map (9 + ·) ++ [9] ∧
    (sendable (some 0x77#7) 110).toNat = 0x76 ∧ (sendable none 111).toNat = 0x77 := by decide

/-- Section 11.1: the refused address is counted by the directory before the stop. -/
theorem test_address_byte_refused :
    let t := after (.addressByteAnswered 0 .refused) (hub (bus0Held (.driving .address (.record job))))
    (t.entry 1).map (fun e => (e.state, e.refusals)) = some (.suspect, 1) ∧
    (t.bus 0).engine = .driving (.stop .addressRefused) (.record { job with attemptsUsed := 1 }) := by decide

theorem test_write_byte_answered :
    let t := { job with segments := [.write [0x10#8, 0x11#8]] }
    let u := after (.writeByteAnswered 0 .acknowledged) (hub (bus0Held (.driving .send (.record t))))
    (u.bus 0).sending = some 0x11#8 ∧ (u.bus 0).dataOut = .low ∧
    ((after (.writeByteAnswered 0 .acknowledged) u).bus 0).engine.phaseField = 0x06#8 := by decide

theorem test_read_byte_taken :
    let t := { job with progress := { segmentInHand := 1, byteInHand := 1, segmentsDone := 1, bytesDone := 2,
                                      readBytes := [0xAA#8] } }
    let u := after (.readByteTaken 0 (.complete 0x55#8)) (hub (bus0Held (.driving (.receive none) (.record t))))
    let gathered := { segmentInHand := 1, byteInHand := 2, segmentsDone := 1, bytesDone := 3, readBytes := [0xAA#8, 0x55#8] }
    (u.bus 0).engine = .driving (.receive (some .refused)) (.record { job with progress := gathered }) ∧
    ((after (.readByteTaken 0 .answered) u).bus 0).engine =
      .driving (.stop (.decision .ok)) (.record { job with progress := { gathered with segmentsDone := 2 } }) := by
  decide

/-- Table 3-2 and R52: a stall at the ninth pulse of the last read byte keeps the byte, and is no OK. -/
theorem test_stall_at_the_last_acknowledge_bit :
    let t := { job with progress := { segmentInHand := 1, byteInHand := 2, segmentsDone := 1, bytesDone := 3,
                                      readBytes := [0xAA#8, 0x55#8] } }
    let u := after (.stall 0) (hub (bus0Held (.driving (.receive (some .refused)) (.record t))))
    (after (.cleared 0) u).store.map (fun c => (c.outcome, c.segmentReached, c.readData)) =
      [(.stalled, 1, [0xAA#8, 0x55#8])] := by
  decide

/-- Section 2.4: the address byte of address 50h with direction read is A1h. -/
theorem test_repeated_start_made :
    let x := ((after (.repeatedStartMade 0) ((hub (bus0Held (.driving .restart (.record job)))).setEntry 1
      (some { target with address := 0x50#7 }))).bus 0)
    x.engine.phaseField = 0x02#8 ∧ x.sending = some 0xA1#8 ∧ x.clockOut = .low ∧ x.dataOut = .released := by decide

/-- R51 and R27: in STOP the hub pulls data low, which is sensed low as clock rises, and releases it for the stop. -/
theorem test_stop_holds_data_low :
    let t := after (.addressByteAnswered 0 .refused) (hub (bus0Held (.driving .address (.record job))))
    let u := after (.startSeen 0 (.clockHigh true)) t
    (t.bus 0).dataOut = .low ∧ (t.bus 0).clockOut = .low ∧ (u.bus 0).clockOut = .released ∧
    (u.bus 0).monitor.bothHigh = false ∧ ((after (.stopReleased 0 true) u).bus 0).dataOut = .released := by decide

/-- Section 11.1: after the stop the record waits for the retry gap, behind its class, with two attempts left. -/
theorem test_stop_released_after_refusal :
    let t := after (.stopReleased 0 true) (hub (bus0Held (.driving (.stop .addressRefused) (.record job))))
    (t.bus 0).routine = [{ job with attemptsLeft := 2, notBefore := some 10 }] ∧ (t.bus 0).engine = .idle none := by decide

theorem test_eighth_loss_is_lost_bus :
    let t := after (.arbitrationLost 0 .notAcknowledge)
      (hub (bus0Held (.driving (.receive (some .refused)) (.record { job with lostArbitrations := 7 }))))
    t.store.map (fun c => (c.outcome, c.lostArbitrations)) = [(.lostBus, 8)] ∧ (t.bus 0).engine = .occupied none := by
  decide

/-- Table 2-2: the hub sends 98h and loses its fifth bit to 90h, which it then hears as its own address 48h; a byte with
other first bits is none it can hear. -/
theorem test_loss_within_the_address_byte :
    let t := after (.arbitrationLost 0 (.bitLow 4))
      (hub { bus0Held (.driving .address (.record job)) with sending := some 0x98#8, ownAddress := some 0x48#7 })
    (t.bus 0).engine = .occupied (some [true, false, false, true, false]) ∧
    ((after (.addressByteHeard 0 0x90#8) t).bus 0).engine.phaseField = 0x07#8 ∧
    ((after (.addressByteHeard 0 0x98#8) t).bus 0).engine = (t.bus 0).engine := by
  decide

theorem test_probe_acknowledged_ends_quarantine :
    let s := (quiet.setEntry 1 (some { target with state := .quarantined, refusals := 4, probe := .issued })).setBus 0
      (bus0Held (.driving .address (.probe 1)))
    ((after (.probeAnswered 0 .acknowledged) s).entry 1).map (fun e => (e.state, e.refusals, e.changed)) =
      some (.present, 0, true) := by decide

theorem test_stall_keeps_the_record :
    let t := after (.stall 0) (hub { bus0Held (.driving .send (.record job)) with stretchTimer := 5 })
    (t.bus 0).engine = .clearing (some job) 0 .waiting ∧ (t.bus 0).stalls = 1 ∧ t.time = 20000 := by decide

/-- R65: with data low a pulse is made and counted, with data high the own start; data low after the ninth is the failure. -/
theorem test_clearing_pulses :
    let risen (high : Bool) (n : Nat) : State :=
      after (.startSeen 0 (.clockHigh high)) (hub (bus0Held (.clearing none n .waiting)))
    let pulse (high : Bool) (n : Nat) : Engine := ((risen high n).bus 0).engine
    pulse false 8 = .clearing none 9 .waiting ∧ pulse false 9 = .clearing none 9 .exhausted ∧
    pulse true 9 = .clearing none 9 .starting ∧ ((risen true 9).bus 0).dataOut = .low ∧
    (((risen true 9).pass 1).bus 0).engine = .clearing none 9 .stopping ∧
    (((risen true 9).pass 1).bus 0).dataOut = .released := by decide

/-- R37 and R38: an edge of the clock on a HELD line returns both timers to 0. -/
theorem test_clock_edge_returns_the_timers :
    let x := { bus0Held (.occupied none) with monitor := { Monitor.reset true with freeTimer := 40, stuckTimer := 7 } }
    let t := after (.startSeen 0 (.clockFell true)) (hub x)
    (t.bus 0).monitor = Monitor.reset false ∧
    ((after (.startSeen 0 (.clockHigh true)) t).bus 0).monitor = Monitor.reset true := by decide

/-- R37: the free timer counts from the sense of both lines high, in DRIVING too. -/
theorem test_both_lines_high_in_driving :
    let s := hub { bus0Held (.driving .send (.record job)) with stretchTimer := 3 }
    let t := after (.startSeen 0 (.clockHigh true)) s
    (t.bus 0).monitor = Monitor.reset true ∧ (t.bus 0).stretchTimer = 0 ∧
    ((t.pass 4).bus 0).monitor.freeTimer = 4 := by decide

/-- R28: both lines falling together on a FREE line is a start. -/
theorem test_both_lines_fall_together :
    let t := after (.startSeen 0 (.clockFell false)) (hub (bus0 (.idle none)))
    (t.bus 0).engine = .occupied (some []) ∧ (t.bus 0).monitor.line = .held := by decide

theorem test_cleared :
    let t := after (.cleared 0) (hub (bus0Held (.clearing (some job) 0 .waiting)))
    t.store.map Completion.outcome = [.stalled] ∧ (t.bus 0).pendingCleared = 1 := by decide

theorem test_clearing_failed :
    let t := after (.clearingFailed 0) (hub (bus0Held (.clearing (some job) 0 .waiting)))
    t.store.map Completion.outcome = [.busFault] ∧ (t.bus 0).engine = .faulted := by decide

/-! ### The directory and the polls -/

theorem test_target_add_defaults :
    let t := after (.targetAdd 0x07#8 [0x00#8, 0x21#8, 0x00#8]) (asking 0x30#8 [0x00#8, 0x21#8, 0x00#8] quiet)
    lastReply t = [0x00#8, 0x06#8, 0x00#8] ∧
    t.entry 0 = some { target with state := .new, address := 0x21#7 } := by decide

theorem test_target_remove_in_use :
    lastReply (after (.targetRemove 0x07#8 [0x01#8])
      (asking 0x31#8 [0x01#8] (hub { bus0 (.occupied none) with routine := [job] }))) = [0x0D#8, 0x06#8] := by decide

theorem test_target_release :
    let s := quiet.setEntry 1 (some { target with state := .quarantined, probe := .due })
    lastReply (after (.targetRelease 0x07#8 [0x01#8]) (asking 0x32#8 [0x01#8] s)) = [0x00#8, 0x06#8, 0x02#8] := by decide

theorem test_target_query_length :
    (lastReply (after (.targetQuery 0x07#8 [0x01#8]) (asking 0x33#8 [0x01#8] (hub (bus0 (.idle none)))))).length = 16 := by
  decide

theorem test_target_changes :
    let s := quiet.setEntry 1 (some { target with changed := true })
    let t := after (.targetChanges 0x07#8 [0x40#8]) (asking 0x34#8 [0x40#8] s)
    lastReply t = [0x00#8, 0x06#8, 0x01#8, 0x00#8, 0x01#8, 0x02#8] ∧ changedTargets t = [] := by decide

theorem test_probe_timer_expiry :
    let s := (quiet.setEntry 1 (some { target with state := .quarantined, probe := .timing 3 })).setBus 0 (bus0 (.idle none))
    let t := after (.probeTimerExpiry 1) s
    (t.bus 0).engine = .idle (some (.probe 1)) ∧ t.time = 3000 := by decide

theorem test_poll_set :
    let body := [0x02#8, 0x01#8, 0x00#8, 0x00#8, 0x00#8, 0x64#8, 0x00#8, 0x02#8, 0xFF#8, 0xFF#8]
    let t := after (.pollSet 0x07#8 body) (asking 0x40#8 body (hub (bus0 (.idle none))))
    lastReply t = [0x00#8, 0x06#8, 0x01#8] ∧ t.poll 2 = some { watch with state := .active 100 } := by decide

theorem test_poll_off_orphans :
    let s := (hub (bus0Held (.driving .send (.record { job with origin := .poll 2 false })))).setPoll 2 (some watch)
    let t := after (.pollOff 0x07#8 [0x02#8]) (asking 0x41#8 [0x02#8] s)
    t.poll 2 = none ∧ (t.bus 0).engine.record?.map Txn.origin = some (.poll 2 true) := by decide

theorem test_poll_read :
    let s := quiet.setPoll 2 (some { watch with lastValue := some [0x12#8, 0x34#8], lastOutcome := some .ok, changed := true })
    lastReply (after (.pollRead 0x07#8 [0x10#8]) (asking 0x42#8 [0x10#8] s)) =
      [0x00#8, 0x06#8, 0x01#8, 0x00#8, 0x02#8, 0x01#8, 0x00#8, 0x00#8, 0x00#8, 0x02#8, 0x12#8, 0x34#8] := by decide

theorem test_poll_period_queues :
    let t := after (.pollPeriodExpiry 2) ((hub (bus0 (.idle none))).setPoll 2 (some watch))
    (t.bus 0).engine.record?.map (fun r => (r.origin, r.segments)) = some (.poll 2 false, [.read 2]) ∧ t.time = 50000 := by
  decide

/-! ### Answering as a target -/

theorem test_listen_set_conflict :
    lastReply (after (.listenSet 0x07#8 [0x00#8, 0x20#8, 0x00#8])
      (asking 0x50#8 [0x00#8, 0x20#8, 0x00#8] (hub (bus0 (.idle none))))) = [0x10#8, 0x06#8] := by decide

theorem test_page_set :
    ((after (.pageSet 0x07#8 [0x00#8, 0xAB#8]) (asking 0x51#8 [0x00#8, 0xAB#8] quiet)).bus 0).page = [0xAB#8] := by decide

theorem test_inbound_read :
    let s := { quiet with inbound := [{ bus := 0, kind := .write, broadcast := true, truncated := false, endedBy := .restart,
                                        count := 1, data := [0x5A#8] }] }
    lastReply (after (.inboundRead 0x07#8 [0x08#8]) (asking 0x52#8 [0x08#8] s)) =
      [0x00#8, 0x06#8, 0x01#8, 0x00#8, 0x00#8, 0x02#8, 0x01#8, 0x01#8, 0x5A#8] := by decide

theorem test_address_byte_heard :
    let t := after (.addressByteHeard 0 0x85#8)
      (hub { bus0Held (.occupied (some [])) with ownAddress := some 0x42#7, page := [0x5C#8] })
    (t.bus 0).engine.phaseField = 0x08#8 ∧ (t.bus 0).dataOut = .low ∧ (t.bus 0).sending = some 0x5C#8 := by decide

theorem test_write_in_byte :
    ((after (.writeInByte 0 0x99#8) (hub (bus0Held (.answering { hearingWrite with count := 32 })))).bus 0).engine =
      .answering { hearingWrite with count := 32, truncated := true } := by decide

/-- R135: data is released when clock falls after the ninth pulse. -/
theorem test_acknowledge_is_released :
    let t := after (.writeInByte 0 0x99#8) (hub (bus0Held (.answering hearingWrite)))
    (t.bus 0).dataOut = .low ∧ ((after (.startSeen 0 (.clockFell false)) t).bus 0).dataOut = .released := by decide

/-- R136: each bit of ABh, 10101011 in binary, is placed after a fall of clock, and data is released for the ninth pulse. -/
theorem test_bits_are_placed :
    let fall (s : State) : State := after (.startSeen 0 (.clockFell false)) s
    let r := { hearingWrite with kind := .read, pageCopy := [0xAB#8] }
    let s := hub { bus0Held (.answering r) with dataOut := .low, sending := some 0xAB#8 }
    ([1, 2, 3, 4, 7, 8, 9].map fun n => ((fall^[n] s).bus 0).dataOut) =
      [.released, .low, .released, .low, .released, .released, .released] := by decide

theorem test_read_out_byte :
    let r := { hearingWrite with kind := .read, pageCopy := [0xAB#8] }
    let t := after (.readOutByte 0 .acknowledged) (hub { bus0Held (.answering r) with sending := some 0xAB#8 })
    r.byteGiven = some 0xAB#8 ∧ (t.bus 0).sending = some 0xFF#8 ∧
    ((after (.readOutByte 0 .refused) t).bus 0).engine = .answering { r with count := 2, closed := true } ∧
    ((after (.readOutByte 0 .refused) t).bus 0).sending = none := by
  decide

/-! ### Witnesses: states and operands that meet the hypotheses of the statements, clause by clause -/

/-- The request `asking` puts at the head is ready to be handled. -/
theorem ready_asking (kind : Byte) (body : List Byte) {s : State} (hl : s.resetLow = false) (hh : s.handler = .ready) :
    (asking kind body s).ready { kind := kind, tag := 0x07#8, body := body } :=
  ⟨hl, hh, rfl⟩

theorem ready_quiet (kind : Byte) (body : List Byte) :
    (asking kind body quiet).ready { kind := kind, tag := 0x07#8, body := body } :=
  ready_asking kind body rfl rfl

theorem ready_hub (kind : Byte) (body : List Byte) (x : Bus) :
    (asking kind body (hub x)).ready { kind := kind, tag := 0x07#8, body := body } :=
  ready_asking kind body rfl rfl

theorem witness_EmptyQueueTakesTheIntakeHeadOrTicks :
    quiet.pending = [] ∧ (asking 0x7F#8 [] quiet).intake ≠ [] ∧ quiet.handler = .ready ∧ (0x7F#8 : Byte).toNat < 128 ∧
    quiet.intake = [] ∧ quiet.resetLow = false ∧ { quiet with handler := Handler.halted }.handler = .halted := by decide

theorem witness_WellFormedCommandsAnswer :
    (Instr.hello 0x00#8 []).wellFormed = true ∧ (Instr.unknownKind 0x01#8 0x00#8 []).kindFits = false ∧
    ∃ b : List Byte, (Instr.hello 0x00#8 (List.replicate 241 0x00#8)).body? = some b ∧ 240 < b.length :=
  ⟨by decide, by decide, _, rfl, by rw [List.length_replicate]; decide⟩

theorem witness_FullResetsLeaveTheirValues :
    quiet.resetLow = false ∧ { quiet with resetLow := true }.resetLow = true ∧
    { quiet with transmitter := .reply { frame := resetNotice, mark := .resetPoint } }.transmitter =
      .reply { frame := resetNotice, mark := .resetPoint } ∧
    (quiet.bus 0).clockOut = .released ∧ (quiet.bus 0).dataOut = .released ∧ (quiet.bus 0).engine.value ≠ 0x03#8 ∧
    (quiet.bus 0).engine.value ≠ 0x05#8 ∧ (∀ r, (quiet.bus 0).engine = .answering r → r.byteGiven = none) :=
  ⟨by decide, by decide, by decide, by decide, by decide, by decide, by decide, fun _ h => (by cases h)⟩

/-- The receiver in this state, with the parts of a frame so far. -/
def receiving (st : ReceiverState) (kind tag high : Option Byte) : State :=
  { quiet with receiver := { Receiver.reset with state := st, kind := kind, tag := tag, checkHigh := high
                                                 running := checkOf [0x01#8, 0x00#8, 0x00#8] } }

theorem witness_ReceiverActsByItsState :
    quiet.resetLow = false ∧ quiet.receiver.state = .hunt ∧ (receiving .sync none none none).receiver.state = .sync ∧
    (receiving .header none none none).receiver.kind = none ∧ (receiving .header (some 0x01#8) none none).receiver.tag = none ∧
    (receiving .header (some 0x01#8) (some 0x00#8) none).receiver.tag ≠ none ∧
    (receiving .body (some 0x01#8) (some 0x00#8) none).receiver.state = .body ∧
    (receiving .check (some 0x01#8) (some 0x00#8) none).receiver.checkHigh = none ∧
    (0x7F#8 : Byte).toNat < 128 ∧ 128 ≤ (0x80#8 : Byte).toNat ∧ (0xF0#8 : Byte).toNat ≤ 240 ∧
    241 ≤ (0xF1#8 : Byte).toNat ∧ nat16 0x00#8 0x00#8 ≠ (checkOf []).toNat := by decide

/-- A frame of a kind, with the tag 7, one byte before its end, the check so far being 0. -/
def lastByteOf (kind tag : Byte) (s : State) : State :=
  { s with receiver := { Receiver.reset with state := .check, kind := some kind, tag := some tag, checkHigh := some 0x00#8
                                             running := 0x0000#16 } }

theorem witness_GoodFramePassesTagAndRoomChecks :
    let s := lastByteOf 0x01#8 0x07#8 quiet
    let cached : CacheEntry := { tag := 0x07#8, kind := 0x01#8, frame := resetNotice }
    s.resetLow = false ∧ s.receiver.state = .check ∧ s.receiver.checkHigh = some 0x00#8 ∧
    nat16 0x00#8 0x00#8 = s.receiver.running.toNat ∧ (∀ q ∈ s.intake, q.tag ≠ 0x07#8) ∧
    let waiting (n : Nat) : State :=
      { s with intake := (List.range n).map fun k => { kind := 0x01#8, tag := byteOf (16 + k), body := [] } }
    let owing (n : Nat) : State := { s with filled := List.replicate n { frame := resetNotice, mark := .plain } }
    s.receiver.kind = some 0x01#8 ∧ s.receiver.tag = some 0x07#8 ∧ s.receiver.body = [] ∧ (∀ c ∈ s.cache, c.tag ≠ 0x07#8) ∧
    (lastByteOf 0x01#8 0x00#8 quiet).receiver.tag = some 0x00#8 ∧
    (∃ q ∈ (asking 0x01#8 [] s).intake, q.tag = 0x07#8) ∧
    ([cached].find? fun c => c.tag == 0x07#8) = some cached ∧ cached.kind = 0x01#8 ∧
    ([{ cached with kind := 0x02#8 }].find? fun c => c.tag == 0x07#8) = some { cached with kind := 0x02#8 } ∧
    { cached with kind := 0x02#8 }.kind ≠ 0x01#8 ∧
    (waiting 5).intake.length < 6 ∧ (waiting 6).intake.length + (waiting 6).owed.length < 8 ∧
    6 ≤ (waiting 6).intake.length ∧ (∀ q ∈ (waiting 6).intake, q.tag ≠ 0x07#8) ∧
    8 ≤ (owing 8).intake.length + (owing 8).owed.length ∧ (owing 7).intake.length + (owing 7).owed.length < 8 := by decide

theorem witness_FramesReadBack :
    (0x7F#8 : Byte).toNat < 128 ∧ (List.replicate 240 (0x00#8 : Byte)).length ≤ 240 :=
  ⟨by decide, by rw [List.length_replicate]⟩

theorem witness_FrameSentChoosesTheNextFrame :
    quiet.resetLow = false ∧ quiet.transmitter ≠ .idle ∧ quiet.transmitter = .notice resetNotice ∧
    noticePending quiet = false ∧ noticePending { quiet with store := [okResult 1 0] } = true ∧ quiet.filled = [] ∧
    { quiet with pendingRate := some .r115200 }.pendingRate = some .r115200 := by decide

theorem witness_FrameInProgressGoesOn :
    (∃ t, exec (.byteReceived 0x00#8) quiet = .next t) ∧ quiet.transmitter ≠ .idle ∧ quiet.resetLow = false :=
  ⟨⟨_, rfl⟩, by decide, rfl⟩

theorem witness_IdleTransmitterOwesNothing :
    quiet.AnnouncedRaised ∧ quiet.SendsWhatItOwes ∧ (∃ t, step quiet = .next t) ∧ quiet.resetLow = false ∧
    (Instr.frameSent ≠ .resetPinAssert ∧ Instr.frameSent ≠ .resetPinRelease) ∧
    ∃ t, exec .frameSent quiet = .next t ∧ t.transmitter = .idle :=
  ⟨by decide, by decide, ⟨_, rfl⟩, rfl, by decide, _, rfl, by decide⟩

theorem witness_GenericChecksRefuse :
    kindUnknown 0x00#8 = true ∧ kindUnknown 0x7F#8 = true ∧ fixedLength .hello = some 0 ∧
    requestOf (.hello 0x07#8 [0x00#8]) = some { kind := Kind.hello.code, tag := 0x07#8, body := [0x00#8] } ∧
    (∀ f : SubmitFields, f.shaped → f.body ≠ []) ∧ (∀ f : TargetFields, f.shaped → f.body ≠ []) ∧
    (∀ f : PollFields, f.shaped → f.body ≠ []) ∧
    (asking 0x01#8 [0x00#8] quiet).ready { kind := 0x01#8, tag := 0x07#8, body := [0x00#8] } :=
  ⟨by decide, by decide, rfl, rfl, fun f _ h => by simp [SubmitFields.body] at h,
    fun f _ h => by simp [TargetFields.body] at h, fun f _ h => by simp [PollFields.body] at h, ready_quiet _ _⟩

theorem witness_ArrivedRequestIsHandled :
    let r : Request := { kind := 0x01#8, tag := 0x07#8, body := [] }
    let cached (kind : Byte) : List CacheEntry := [{ tag := 0x07#8, kind := kind, frame := resetNotice }]
    let owing (n : Nat) : State :=
      { quiet with filled := List.replicate n { frame := resetNotice, mark := .plain } }
    requestOf (.hello 0x07#8 []) = some r ∧ (Instr.hello 0x07#8 []).kindFits = true ∧ quiet.resetLow = false ∧
    quiet.intake = [] ∧ quiet.intake.head? ≠ some r ∧ (∀ e ∈ quiet.cache, e.tag ≠ 0x07#8) ∧ quiet.owed.length < 8 ∧
    8 ≤ (owing 8).owed.length ∧ (owing 7).owed.length < 8 ∧
    (asking 0x02#8 [] quiet).intake.head? ≠ some r ∧ (∃ q ∈ (asking 0x02#8 [] quiet).intake, q.tag = 0x07#8) ∧
    (asking 0x02#8 [] quiet).intake ≠ [] ∧
    ((cached 0x01#8).find? fun e => e.tag == r.tag) = some { tag := 0x07#8, kind := 0x01#8, frame := resetNotice } ∧
    ((cached 0x02#8).find? fun e => e.tag == r.tag) = some { tag := 0x07#8, kind := 0x02#8, frame := resetNotice } := by
  decide

/-- A request refused: its reply is the last owed. -/
theorem witness_RefusedRequestsChangeNothing :
    let s := asking 0x01#8 [0x00#8] quiet
    ∃ t, exec (.hello 0x07#8 [0x00#8]) s = .next t ∧
      ∃ l p, t.owed = l ++ [p] ∧ p.frame.body.head? ≠ some 0x00#8 :=
  ⟨_, rfl, [], { frame := { kind := 0x81#8, tag := 0x07#8, body := [0x03#8, 0x06#8] }, mark := .plain }, by decide, by decide⟩

theorem witness_HandlerRequestsAnswer :
    (asking 0x01#8 [] quiet).ready { kind := 0x01#8, tag := 0x07#8, body := [] } ∧
    (asking 0x02#8 [] quiet).ready { kind := 0x02#8, tag := 0x07#8, body := [] } ∧
    (asking 0x03#8 [0x3F#8] quiet).ready { kind := 0x03#8, tag := 0x07#8, body := [0x3F#8] } ∧
    (0x3F#8 : Byte).toNat < 64 ∧ 64 ≤ (0x40#8 : Byte).toNat :=
  ⟨ready_quiet _ _, ready_quiet _ _, ready_quiet _ _, by decide, by decide⟩

theorem witness_LinkConfigSetsThePendingRate :
    (asking 0x04#8 [0x0E#8, 0x10#8, 0x00#8] quiet).ready
      { kind := 0x04#8, tag := 0x07#8, body := [0x0E#8, 0x10#8, 0x00#8] } ∧
    nat24 0x0E#8 0x10#8 0x00#8 = LinkRate.r921600.bitsPerSecond ∧
    ∀ r : LinkRate, nat24 0x00#8 0x00#8 0x00#8 ≠ r.bitsPerSecond :=
  ⟨ready_quiet _ _, by decide, fun r => by cases r <;> decide⟩

/-- Bus 0 with ticket 1 queued behind another record. -/
def queuedJob : Bus := { bus0 (.occupied none) with routine := [{ job with origin := .poll 2 false }, job] }

theorem witness_ReadingRequestsReport :
    (asking 0x05#8 [] quiet).ready { kind := 0x05#8, tag := 0x07#8, body := [] } ∧
    (asking 0x12#8 [0x00#8, 0x01#8] (hub queuedJob)).findTicket 1 = .queued 0 job ∧
    (asking 0x12#8 [0x00#8, 0x01#8] (hub (bus0Held (.driving .send (.record job))))).findTicket 1 = .active 0 ∧
    { quiet with waitList := [{ record := job, outcome := .ok }] }.findTicket 1 = .decided ∧
    { quiet with store := [okResult 1 0] }.findTicket 1 = .stored ∧ quiet.findTicket 1 = .nowhere ∧
    nat16 0x00#8 0x01#8 ≠ 0 ∧ nat16 0x00#8 0x00#8 = 0 ∧ 64 ≤ (0x40#8 : Byte).toNat ∧
    (hub queuedJob).entry 1 = some target ∧ (hub queuedJob).entry 63 = none :=
  ⟨ready_quiet _ _, rfl, rfl, rfl, rfl, rfl, by decide, by decide, by decide, by decide, by decide⟩

theorem witness_DecisionsGoToTheStore :
    job.origin = .host 1 ∧ quiet.store.length < 24 ∧ quiet.waitList = [] ∧
    24 ≤ { quiet with store := (List.range 24).map fun k => okResult k 0 }.store.length ∧
    { job with origin := .poll 2 true }.origin = .poll 2 true := by decide

theorem witness_InstanceOutcomesReachThePoll :
    { job with origin := .poll 2 false }.origin = .poll 2 false ∧ (quiet.setPoll 2 (some watch)).poll 2 = some watch ∧
    watch.lastValue = none ∧ watch.policy = .change ∧
    List.zipWith (· &&& ·) watch.mask [0x12#8, 0x34#8] ≠ List.zipWith (· &&& ·) watch.mask [0x12#8, 0x35#8] := by decide

theorem witness_ReturnsAreDecidedOrPlaced :
    job.origin = .host 1 ∧ { job with cancelPending := true }.cancelPending = true ∧
    (quiet.setEntry 1 (some { target with state := .quarantined })).quarantined job.handle = true ∧
    (hub queuedJob).quarantined job.handle = false ∧ { job with deadline := some 0 }.deadline = some 0 ∧ 0 ≤ quiet.now ∧
    quiet.now < 1 ∧ 1 < job.attemptsLeft ∧ job.lostArbitrations < 7 := by decide

/-- Handle 1 waits for its probe, and is due. -/
def probing (p : ProbeStatus) (x : Bus) : State :=
  (quiet.setEntry 1 (some { target with state := .quarantined, refusals := 4, probe := p })).setBus 0 x

theorem witness_SelectionChoosesTheNextWork :
    ((hub (bus0 (.idle none))).bus 0).engine = .idle none ∧
    (probing .due (bus0 (.idle none))).entry 1 = some { target with state := .quarantined, refusals := 4, probe := .due } ∧
    (∀ k : Handle, k < 1 → (probing .due (bus0 (.idle none))).entry k = none) ∧
    queuedJob.routine = [{ job with origin := .poll 2 false }] ++ job :: [] ∧ job.notBefore = none ∧
    (∀ u ∈ queuedJob.urgent, u.notBefore ≠ none) ∧ queuedJob.urgentRun < 8 ∧ 8 ≤ { queuedJob with urgentRun := 8 }.urgentRun ∧
    (∀ h : Handle, ∀ e ∈ (hub queuedJob).entry h, e.probe ≠ .due) := by decide

theorem witness_AddressAndProbeResultsMoveTheEntry :
    (hub queuedJob).entry 1 = some target ∧ target.state ≠ .quarantined ∧ rise 255 target.refusals < target.threshold ∧
    { target with threshold := 1 }.threshold ≤ rise 255 target.refusals ∧
    (probing .issued queuedJob).entry 1 = some { target with state := .quarantined, refusals := 4, probe := .issued } ∧
    (∀ e ∈ (probing .due queuedJob).entry 1, e.probe ≠ .issued ∨ e.bus ≠ 0) := by decide

theorem witness_QuarantineBeginsAndEnds : (hub queuedJob).entry 1 = some target := by decide

theorem witness_TicketIssuedIsTheFirstFree :
    1 ≤ quiet.nextTicket ∧ quiet.nextTicket ≤ 65535 ∧ quiet.ticketsInUse.length < 65535 ∧
    1 ≤ { quiet with nextTicket := 65535 }.nextTicket := by decide

/-- The fields of the sizing example for handle 1. -/
def exampleFields : SubmitFields :=
  { handle := 0x01#8, cls := 0x01#8, deadline := some 50, attempts := none,
    segments := [{ direction := 0x00#8, length := 0x01#8, bytes := [0x20#8] },
                 { direction := 0x01#8, length := 0x02#8, bytes := [] }] }

theorem shaped_exampleFields : exampleFields.shaped := by
  refine ⟨?_, ?_, by decide, by decide, ?_, by decide⟩
  · intro n hn
    obtain rfl : 50 = n := by simpa [exampleFields] using hn
    decide
  · intro n hn
    simp [exampleFields] at hn
  · intro g hg
    rcases List.mem_cons.mp hg with rfl | hg
    · rfl
    · obtain rfl := List.mem_singleton.mp hg
      rfl

theorem means_exampleFields : exampleFields.means 1 .urgent [.write [0x20#8], .read 2] := by
  refine ⟨by decide, rfl, ?_, by decide, ?_, ?_⟩
  · exact .cons ⟨by decide, by decide, .inl ⟨rfl, rfl⟩⟩ (.cons ⟨by decide, by decide, .inr ⟨rfl, rfl⟩⟩ .nil)
  · intro n hn
    obtain rfl : 50 = n := by simpa [exampleFields] using hn
    decide
  · intro n hn
    simp [exampleFields] at hn

theorem witness_SubmitQueuesTheTransaction :
    (asking 0x10#8 exampleFields.body (hub queuedJob)).ready { kind := 0x10#8, tag := 0x07#8, body := exampleFields.body } ∧
    exampleFields.shaped ∧ exampleFields.means 1 .urgent [.write [0x20#8], .read 2] ∧
    (hub queuedJob).entry 1 = some target ∧ target.state ≠ .quarantined ∧
    ((hub queuedJob).bus target.bus).engine ≠ .off ∧ ((hub queuedJob).bus target.bus).engine ≠ .faulted ∧
    ((hub queuedJob).bus target.bus).records.length < 16 ∧ (hub queuedJob).recordsTaken < 48 :=
  ⟨ready_hub _ _ _, shaped_exampleFields, means_exampleFields, by decide, by decide, by decide, by decide, by decide,
    by decide⟩

theorem witness_SubmitIsRefusedInOrder :
    (∀ h cls segments, ¬ { exampleFields with attempts := some 9 }.means h cls segments) ∧
    exampleFields.shaped ∧ exampleFields.means 1 .urgent [.write [0x20#8], .read 2] ∧ quiet.entry 1 = none ∧
    (quiet.bus 0).engine = .off ∧ 16 ≤ { queuedJob with routine := List.replicate 16 job }.records.length ∧
    48 ≤ { quiet with waitList := List.replicate 48 { record := job, outcome := .ok } }.recordsTaken :=
  ⟨fun _ _ _ h => absurd (h.2.2.2.2.2 9 rfl).2 (by decide), shaped_exampleFields, means_exampleFields, by decide, by decide,
    by decide, by decide⟩

theorem witness_CancelAndFlushDecideRecords :
    (asking 0x11#8 [0x00#8, 0x01#8] (hub queuedJob)).ready { kind := 0x11#8, tag := 0x07#8, body := [0x00#8, 0x01#8] } ∧
    (hub queuedJob).findTicket 1 = .queued 0 job ∧ (hub (bus0Held (.clearing (some job) 0 .waiting))).findTicket 1 = .active 0 ∧
    (hub queuedJob).findTicket 2 = .nowhere ∧
    (asking 0x13#8 [0x03#8] (hub queuedJob)).ready { kind := 0x13#8, tag := 0x07#8, body := [0x03#8] } ∧
    (0x03#8 : Byte).toNat = (3 : BusId).val ∧ 4 ≤ (0x04#8 : Byte).toNat :=
  ⟨ready_hub _ _ _, rfl, rfl, rfl, ready_hub _ _ _, by decide, by decide⟩

theorem witness_FetchTakesFromTheHeadOfTheStore :
    let s := asking 0x14#8 [0x08#8] { quiet with store := [okResult 112 64, okResult 115 64, okResult 113 64, okResult 118 20] }
    s.ready { kind := 0x14#8, tag := 0x07#8, body := [0x08#8] } ∧ s.WaitersAreHost ∧
    s.store = [okResult 112 64, okResult 115 64, okResult 113 64] ++ [okResult 118 20] ∧
    ([okResult 112 64, okResult 115 64, okResult 113 64].map fun c => 9 + c.readData.length).sum = 219 ∧
    236 < 219 + (9 + (okResult 118 20).readData.length) :=
  ⟨ready_asking _ _ rfl rfl, by decide, rfl, by decide, by decide⟩

theorem witness_BusConfigSetsAndEnables :
    let body := [0x00#8, 0x01#8, 0x02#8, 0x01#8, 0x64#8, 0x05#8]
    (asking 0x20#8 body quiet).ready { kind := 0x20#8, tag := 0x07#8, body := body } ∧ (quiet.bus 0).engine = .off ∧
    (hub queuedJob).bus 0 = queuedJob ∧ queuedJob.engine ≠ .off ∧ queuedJob.engine ≠ .idle none ∧
    (bus0 (.idle none)).engine = .idle none ∧ (bus0 (.idle none)).queue = [] ∧ (quiet.bus 0).monitor.line = .held :=
  ⟨ready_quiet _ _, by decide, by decide, by decide, by decide, by decide, by decide, by decide⟩

theorem witness_BusStatusAndBusReset :
    (asking 0x21#8 [0x00#8] (hub queuedJob)).ready { kind := 0x21#8, tag := 0x07#8, body := [0x00#8] } ∧
    (asking 0x22#8 [0x00#8] (hub queuedJob)).ready { kind := 0x22#8, tag := 0x07#8, body := [0x00#8] } ∧
    (quiet.bus 3).engine = .off ∧ (bus0Held (.driving .send (.record job))).engine.record? = some job ∧
    (bus0Held (.driving .address (.probe 1))).engine.awaitsProbe 1 = true ∧ queuedJob.engine.record? = none ∧
    (∀ h : Handle, queuedJob.engine.awaitsProbe h = false) :=
  ⟨ready_hub _ _ _, ready_hub _ _ _, by decide, by decide, by decide, by decide, by decide⟩

/-- The fields of a TARGET_ADD for bus 0, address 77h, with an attempts value and a probe interval at their limits. -/
def targetFields77 : TargetFields :=
  { bus := 0x00#8, address := 0x77#8, attempts := some 8, retryGap := none, threshold := none, probeInterval := some 100 }

theorem shaped_targetFields77 : targetFields77.shaped := by
  refine ⟨?_, ?_, ?_, ?_⟩ <;> intro n hn <;> simp [targetFields77] at hn <;> subst hn <;> decide

theorem means_targetFields77 : targetFields77.means 0 0x77#7 := by
  refine ⟨by decide, by decide, by decide, by decide, ?_, ?_, ?_, ?_⟩ <;> intro n hn <;>
    simp [targetFields77] at hn <;> subst hn <;> decide

theorem witness_TargetAddTakesTheLowestHandle :
    (asking 0x30#8 targetFields77.body (hub queuedJob)).ready
      { kind := 0x30#8, tag := 0x07#8, body := targetFields77.body } ∧
    targetFields77.shaped ∧ targetFields77.means 0 0x77#7 ∧ (∀ b a, ¬ { targetFields77 with bus := 0x04#8 }.means b a) ∧
    (hub queuedJob).entry 0 = none ∧ (∀ k : Handle, k < 0 → (hub queuedJob).entry k ≠ none) ∧
    (∀ k : Handle, ∀ e ∈ (hub queuedJob).entry k, ¬ (e.bus = 0 ∧ e.address = 0x77#7)) ∧
    ((hub queuedJob).bus 0).ownAddress ≠ some 0x77#7 ∧
    (∀ h, { quiet with directory := Vector.replicate 64 (some target) }.entry h ≠ none) :=
  ⟨ready_hub _ _ _, shaped_targetFields77, means_targetFields77,
    fun b _ h => absurd h.1 (by have := b.isLt; show ¬ 4 = b.val; omega), by decide, by decide, by decide, by decide,
    by decide⟩

theorem witness_TargetsAreRemovedAndReleased :
    (asking 0x31#8 [0x01#8] (hub queuedJob)).ready { kind := 0x31#8, tag := 0x07#8, body := [0x01#8] } ∧
    (asking 0x32#8 [0x01#8] (hub queuedJob)).ready { kind := 0x32#8, tag := 0x07#8, body := [0x01#8] } ∧
    (∃ t ∈ (hub queuedJob).records, t.handle = 1) ∧ (∀ t ∈ (hub (bus0 (.idle none))).records, t.handle ≠ 1) ∧
    (∀ i : PollIndex, ∀ p ∈ (hub (bus0 (.idle none))).poll i, p.handle ≠ 1) ∧ (hub queuedJob).entry 63 = none ∧
    (probing .due queuedJob).entry 1 = some { target with state := .quarantined, refusals := 4, probe := .due } ∧
    (0x3F#8 : Byte).toNat = (63 : Handle).val ∧ 64 ≤ (0x40#8 : Byte).toNat :=
  ⟨ready_hub _ _ _, ready_hub _ _ _, by decide, by decide, by decide, by decide, by decide, by decide, by decide⟩

theorem witness_ChangeSetsAreReadInOrder :
    let s := (quiet.setEntry 5 (some { target with changed := true })).setPoll 15 (some { watch with changed := true })
    (asking 0x34#8 [0x01#8] s).ready { kind := 0x34#8, tag := 0x07#8, body := [0x01#8] } ∧
    (asking 0x42#8 [0x10#8] s).ready { kind := 0x42#8, tag := 0x07#8, body := [0x10#8] } ∧
    [(5 : Handle)] ++ [] = (List.finRange 64).filter (fun h => (s.entry h).any Entry.changed) ∧
    [(15 : PollIndex)] ++ [] = (List.finRange 16).filter (fun i => (s.poll i).any Poll.changed) :=
  ⟨ready_asking _ _ rfl rfl, ready_asking _ _ rfl rfl, by decide, by decide⟩

/-- The fields of a POLL_SET of poll 15 for handle 1, with the shortest period and the shortest read. -/
def pollFields15 : PollFields :=
  { index := 0x0F#8, handle := 0x01#8, cls := 0x00#8, policy := 0x01#8, period := 10, writeBytes := [], readLength := 1,
    mask := [0xFF#8] }

theorem witness_PollSetStartsThePoll :
    (asking 0x40#8 pollFields15.body (hub queuedJob)).ready { kind := 0x40#8, tag := 0x07#8, body := pollFields15.body } ∧
    pollFields15.shaped ∧ pollFields15.means 15 1 .routine .every ∧
    (∀ i h cls policy, ¬ { pollFields15 with readLength := 0, mask := [] }.means i h cls policy) ∧
    (hub queuedJob).poll 15 = none ∧ (hub queuedJob).entry 1 = some target ∧ (hub queuedJob).recordsTaken < 48 ∧
    48 ≤ { quiet with waitList := List.replicate 48 { record := job, outcome := .ok } }.recordsTaken :=
  ⟨ready_hub _ _ _, ⟨by decide, by decide, by decide⟩,
    ⟨by decide, by decide, rfl, rfl, by decide, by decide, by decide, by decide, by decide⟩,
    fun _ _ _ _ h => absurd h.2.2.2.2.2.2.2.1 (by decide), by decide, by decide, by decide, by decide⟩

theorem witness_PollOffReleasesTheRecord :
    (asking 0x41#8 [0x0F#8] (hub queuedJob)).ready { kind := 0x41#8, tag := 0x07#8, body := [0x0F#8] } ∧
    (0x0F#8 : Byte).toNat = (15 : PollIndex).val ∧ 16 ≤ (0x10#8 : Byte).toNat ∧ (hub queuedJob).poll 15 = none ∧
    (quiet.setPoll 2 (some watch)).poll 2 ≠ none ∧
    (bus0Held (.driving .send (.record { job with origin := .poll 2 false }))).engine =
      .driving .send (.record { job with origin := .poll 2 false }) :=
  ⟨ready_hub _ _ _, by decide, by decide, by decide, by decide, rfl⟩

theorem witness_ListenAndPageSettingsAreTaken :
    (asking 0x50#8 [0x00#8, 0x08#8, 0x01#8] (hub queuedJob)).ready
      { kind := 0x50#8, tag := 0x07#8, body := [0x00#8, 0x08#8, 0x01#8] } ∧
    (asking 0x51#8 [0x00#8] (hub queuedJob)).ready { kind := 0x51#8, tag := 0x07#8, body := [0x00#8] } ∧
    (0x08#7 : BusAddress).toNat = (0x08#8 : Byte).toNat ∧ (0x77#7 : BusAddress).toNat = (0x77#8 : Byte).toNat ∧
    (∀ h : Handle, ∀ e ∈ (hub queuedJob).entry h, e.bus = 0 → some e.address ≠ some 0x08#7) ∧
    (∀ r, ((hub queuedJob).bus 0).engine ≠ .answering r) ∧
    (bus0Held (.answering hearingWrite)).engine = .answering hearingWrite :=
  ⟨ready_hub _ _ _, ready_hub _ _ _, by decide, by decide, by decide, fun r h => (by
    rw [show ((hub queuedJob).bus 0).engine = .occupied none by decide] at h
    cases h), rfl⟩

theorem witness_InboundReadTakesFromTheHead :
    let record := hearingWrite.record 0 .stop
    let s := asking 0x52#8 [0x01#8] { quiet with inbound := [record, record] }
    let cached : CacheEntry := { tag := 0x07#8, kind := 0x52#8, frame := resetNotice }
    s.ready { kind := 0x52#8, tag := 0x07#8, body := [0x01#8] } ∧ s.inbound = [record] ++ [record] ∧
    ([record].map fun r => 4 + r.data.length).sum ≤ 236 ∧
    { quiet with cache := [cached] }.intake = [] ∧ { quiet with cache := [cached] }.owed.length < 8 ∧
    { quiet with cache := [cached] }.cache.find? (fun c => c.tag == 0x07#8) = some cached :=
  ⟨ready_asking _ _ rfl rfl, rfl, by decide, by decide, by decide, by decide⟩

theorem witness_RecordTimersRunOut :
    (hub queuedJob).resetLow = false ∧ (hub queuedJob).findTicket 1 = .queued 0 job ∧
    (hub (bus0Held (.driving .send (.record { job with deadline := some 3 })))).findTicket 1 = .active 0 ∧
    (hub queuedJob).findTicket 65535 = .nowhere ∧
    ((hub queuedJob).bus 0).queue = [{ job with origin := .poll 2 false }] ++ job :: [] ∧ job.named (.host 1) = true ∧
    { job with origin := .poll 2 false }.named (.host 1) = false ∧
    (∀ a : BusId, a < 0 → ∀ u ∈ ((hub queuedJob).bus a).queue, u.named (.host 1) = false) ∧
    (∀ b, ∀ t ∈ ((hub queuedJob).bus b).queue, t.named (.host 9) = false) :=
  ⟨rfl, rfl, rfl, rfl, by decide, by decide, by decide, by decide, by decide⟩

theorem witness_ProbeAndPollTimersRunOut :
    quiet.resetLow = false ∧
    (probing (.timing 0) queuedJob).entry 1 =
      some { target with state := .quarantined, refusals := 4, probe := .timing 0 } ∧
    (∀ r, ∀ e ∈ (hub queuedJob).entry 1, e.probe ≠ .timing r) ∧
    ((hub queuedJob).setPoll 2 (some watch)).poll 2 = some watch ∧ watch.state = .active 50 ∧
    (hub (bus0 (.idle none))).entry watch.handle = some target ∧
    (∀ t ∈ (hub (bus0 (.idle none))).records, t.origin ≠ .poll 2 false) ∧
    ((hub (bus0 (.idle none))).bus 0).engine.value = 0x01#8 ∧ ((hub (bus0 (.idle none))).bus 0).records.length < 16 ∧
    ¬ (∀ t ∈ (hub queuedJob).records, t.origin ≠ .poll 2 false) :=
  ⟨rfl, by decide, fun r e he h => (by
    obtain rfl : target = e := Option.some.inj ((by decide : some target = (hub queuedJob).entry 1).trans he)
    cases h), by decide, rfl, by decide, by decide, by decide, by decide, by decide⟩

theorem witness_StartSeenActsByTheEngine :
    (quiet.resetLow = false ∧ (bus0Held .off).monitor.line = .held ∧ (bus0 (.idle none)).monitor.line = .free ∧
      (bus0Held (.clearing none 0 .waiting)).engine = .clearing none 0 .waiting ∧ ClearingStage.waiting ≠ .starting ∧
      (bus0Held (.clearing none 0 .starting)).engine = .clearing none 0 .starting ∧
      (bus0 (.idle (some (.record job)))).engine = .idle (some (.record job)) ∧
      (bus0Held (.driving (.receive none) (.probe 1))).engine = .driving (.receive none) (.probe 1) ∧
      (bus0Held (.driving (.receive (some .acknowledged)) (.record job))).engine =
        .driving (.receive (some .acknowledged)) (.record job) ∧
      (bus0Held (.driving (.stop .probeDone) (.probe 1))).engine = .driving (.stop .probeDone) (.probe 1) ∧
      (bus0Held (.answering hearingWrite)).engine = .answering hearingWrite ∧
      (bus0Held (.driving .start (.record job))).engine = .driving .start (.record job) ∧
      (bus0Held (.driving .send (.record job))).engine.value = 0x03#8 ∧
      (bus0Held (.driving .send (.record job))).engine.phaseField ≠ 0x01#8 ∧
      (bus0Held (.answering hearingWrite)).engine.value = 0x04#8 ∧ (bus0Held (.answering hearingWrite)).sending = none ∧
      { bus0Held (.driving .send (.record job)) with sending := some 0x10#8, bitsPlaced := 7 }.bitsPlaced = (7 : Fin 8).val ∧
      8 ≤ { bus0Held (.answering hearingWrite) with sending := some 0xFF#8, bitsPlaced := 8 }.bitsPlaced ∧
      (bus0Held (.occupied none)).engine.value ≠ 0x04#8 ∧ (bus0Held (.occupied none)).engine.value ≠ 0x03#8 ∧
      (bus0Held (.occupied none)).monitor.bothHigh = false ∧ (quiet.bus 0).monitor.bothHigh = true) ∧
    (∀ kept n, (bus0Held (.occupied none)).engine ≠ .clearing kept n .waiting) ∧
    (∀ kept n, (bus0 (.idle none)).engine ≠ .clearing kept n .waiting) :=
  ⟨by decide, fun _ _ h => (by cases h), fun _ _ h => (by cases h)⟩

theorem witness_StopSeenAndBusFreeActByTheEngine :
    quiet.resetLow = false ∧ (bus0 (.idle none)).monitor.line = .free ∧ (bus0Held (.occupied (some []))).monitor.line = .held ∧
    (bus0Held .faulted).monitor.freeRaised = false ∧ (bus0 (.idle none)).monitor.freeRaised = true ∧
    (bus0Held (.driving .start (.record job))).engine.value = 0x03#8 ∧ (bus0Held (.occupied (some []))).engine.value = 0x02#8 ∧
    (bus0Held (.clearing none 9 .exhausted)).engine = .clearing none 9 .exhausted ∧ ClearingStage.exhausted ≠ .starting ∧
    (bus0Held (.clearing none 9 .starting)).engine = .clearing none 9 .starting ∧
    (bus0Held (.driving (.stop .probeDone) (.probe 1))).engine = .driving (.stop .probeDone) (.probe 1) ∧
    (bus0Held (.answering hearingWrite)).engine = .answering hearingWrite := by
  decide

theorem witness_ClearingBeginsAndEnds :
    quiet.resetLow = false ∧ ((hub (bus0Held (.occupied (some [])))).bus 0).engine = .occupied (some []) ∧
    ((hub (bus0Held (.answering hearingWrite))).bus 0).engine = .answering hearingWrite ∧
    ((hub (bus0Held (.driving .send (.record job)))).bus 0).engine = .driving .send (.record job) ∧
    ((hub (bus0Held (.driving (.stop .probeDone) (.probe 1)))).bus 0).engine = .driving (.stop .probeDone) (.probe 1) ∧
    ((hub (bus0Held (.clearing none 8 .waiting))).bus 0).engine = .clearing none 8 .waiting ∧
    ((hub (bus0Held (.clearing none 9 .exhausted))).bus 0).engine = .clearing none 9 .exhausted ∧
    (bus0Held (.clearing none 8 .waiting)).monitor.line = .held ∧
    (bus0Held (.clearing none 8 .waiting)).dataOut = .released ∧
    ((hub (bus0Held (.clearing (some job) 0 .stopping))).bus 0).engine = .clearing (some job) 0 .stopping := by decide

theorem witness_StartsAreMade :
    quiet.resetLow = false ∧ ((hub (bus0 (.idle (some (.record job))))).bus 0).engine = .idle (some (.record job)) ∧
    ((hub (bus0 (.idle (some (.record job))))).bus 0).monitor.line = .free ∧ (hub (bus0 .off)).entry job.handle = some target ∧
    ((hub (bus0Held (.idle (some (.probe 1))))).bus 0).monitor.line = .held ∧
    ((hub (bus0 (.idle (some (.probe 2))))).bus 0).engine = .idle (some (.probe 2)) ∧ (hub (bus0 .off)).entry 2 = none ∧
    ((hub (bus0Held (.driving .restart (.record job)))).bus 0).engine = .driving .restart (.record job) := by decide

theorem witness_AddressBytesAreAnswered :
    quiet.resetLow = false ∧ ((hub (bus0Held (.driving .start (.record job)))).bus 0).engine = .driving .start (.record job) ∧
    job.progress.segmentInHand = 0 ∧ job.isHost = true ∧ job.cancelPending = false ∧
    job.segments[job.progress.segmentInHand]? = some (.write [0x10#8]) ∧
    { job with progress := { Progress.zero with segmentInHand := 1 } }.progress.segmentInHand ≠ 0 ∧
    job.segments[1]? = some (.read 2) ∧
    ((probing .issued (bus0Held (.driving .address (.probe 1)))).bus 0).engine = .driving .address (.probe 1) := by decide

theorem witness_BytesMoveOnTheTransfer :
    let reading (given : Option AckBit) : State := hub (bus0Held (.driving (.receive given) (.record job)))
    quiet.resetLow = false ∧ ((hub (bus0Held (.driving .send (.record job)))).bus 0).engine = .driving .send (.record job) ∧
    job.segments[job.progress.segmentInHand]? = some (.write [0x10#8]) ∧
    [0x10#8][job.progress.byteInHand + 1]? = none ∧ [0x10#8, 0x11#8][job.progress.byteInHand + 1]? = some 0x11#8 ∧
    { job with segments := [.read 32] }.segments[job.progress.segmentInHand]? = some (.read 32) ∧
    ((reading none).bus 0).engine = .driving (.receive none) (.record job) ∧
    ((reading (some .acknowledged)).bus 0).engine = .driving (.receive (some .acknowledged)) (.record job) ∧
    ((reading (some .refused)).bus 0).engine = .driving (.receive (some .refused)) (.record job) ∧
    1 ≤ job.progress.byteInHand + 1 ∧ ¬ (2 ≤ job.progress.byteInHand + 1 ∨ job.cancelPending = true) ∧
    job.progress.byteInHand < 1 ∧ 1 ≤ { job.progress with byteInHand := 1 }.byteInHand := by decide

theorem witness_StopReportsItsResult :
    quiet.resetLow = false ∧
    ((hub (bus0Held (.driving (.stop (.decision .ok)) (.record job)))).bus 0).engine =
      .driving (.stop (.decision .ok)) (.record job) := by decide

theorem witness_ArbitrationIsLost :
    quiet.resetLow = false ∧ ((hub (bus0Held (.driving .address (.probe 1)))).bus 0).engine = .driving .address (.probe 1) ∧
    ((hub (bus0Held (.driving (.receive (some .refused)) (.record job)))).bus 0).engine =
      .driving (.receive (some .refused)) (.record job) ∧
    ((hub (bus0Held (.driving .restart (.record job)))).bus 0).engine = .driving .restart (.record job) ∧
    ((hub (bus0Held (.driving (.stop .probeDone) (.probe 1)))).bus 0).engine = .driving (.stop .probeDone) (.probe 1) ∧
    ((hub { bus0Held (.driving .send (.record job)) with sending := some 0x10#8 }).bus 0).sending = some 0x10#8 ∧
    (0x10#8 : Byte).getLsbD (7 - (3 : Fin 8).val) = true ∧ (0x10#8 : Byte).getLsbD (7 - (7 : Fin 8).val) = false ∧
    ((hub (bus0Held (.driving .restart (.record job)))).bus 0).sending = none ∧
    ((hub (bus0Held (.driving .start (.record job)))).bus 0).engine = .driving .start (.record job) ∧
    (∀ r, DrivePhase.start ≠ .stop r) :=
  ⟨by decide, by decide, by decide, by decide, by decide, by decide, by decide, by decide, by decide, by decide,
    fun _ h => (by cases h)⟩

theorem witness_ResponderAnswersAsATarget :
    let bits (v : Byte) : List Bool := (List.range 8).map fun i => v.getLsbD (7 - i)
    quiet.resetLow = false ∧ ((hub (bus0Held (.occupied (some [])))).bus 0).engine = .occupied (some []) ∧
    (bits 0x90#8).take [true, false, false, true, false].length = [true, false, false, true, false] ∧
    (bits 0x98#8).take [true, false, false, true, false].length ≠ [true, false, false, true, false] ∧
    quiet.inbound.length + quiet.reservations < 8 ∧
    8 ≤ { quiet with inbound := List.replicate 8 (hearingWrite.record 0 .stop) }.inbound.length ∧
    { bus0Held (.occupied (some [])) with ownAddress := some 0x77#7 }.ownAddress = some 0x77#7 ∧
    (0xEF#8 : Byte).toNat = 2 * (0x77#7 : BusAddress).toNat + 1 ∧
    ((hub (bus0Held (.answering { hearingWrite with count := 31 }))).bus 0).engine =
      .answering { hearingWrite with count := 31 } ∧
    ((hub (bus0Held (.answering { hearingWrite with kind := .read, count := 32 }))).bus 0).engine =
      .answering { hearingWrite with kind := .read, count := 32 } ∧
    { hearingWrite with kind := .read, pageCopy := [0xAB#8] }.pageCopy = [] ++ 0xAB#8 :: [] ∧
    { hearingWrite with kind := .read, pageCopy := [0xAB#8], count := 1 }.pageCopy.length ≤ 1 := by decide

theorem witness_HappeningsOutOfPlaceChangeNothing :
    { quiet with resetLow := true }.resetLow = true ∧ (Instr.frameSent).wellFormed = true ∧ quiet.resetLow = false ∧
    silent.transmitter = .idle ∧ (quiet.bus 0).engine = .off ∧
    ((hub (bus0Held (.driving .send (.record job)))).bus 0).engine = .driving .send (.record job) ∧
    (∀ r w, Engine.driving .send (.record job) ≠ .driving (.stop r) w) ∧
    (∀ t, Engine.driving .send (.record job) ≠ .driving .address (.record t)) :=
  ⟨rfl, by decide, rfl, rfl, by decide, by decide, fun _ _ h => (by cases h), fun _ h => (by cases h)⟩

/-- The laws hold of the hub with work in every part, and it takes a step. -/
def busyHub : State :=
  { ((hub { bus0Held (.driving .send (.record job)) with
        sending := some 0x10#8, bitsPlaced := 1, clockOut := .low, dataOut := .low
        urgent := [{ job with origin := .host 2, cls := .urgent }]
        routine := [{ job with origin := .poll 2 false, notBefore := some 4 }] }).setPoll 2 (some watch)) with
    nextTicket := 4
    store := [okResult 3 0]
    inbound := [hearingWrite.record 1 .stop]
    intake := [{ kind := 0x01#8, tag := 0x07#8, body := [] }]
    filled := [{ frame := { kind := 0x84#8, tag := 0x09#8, body := [0x00#8, 0x06#8, 0x01#8, 0xC2#8, 0x00#8] }
                 mark := .switchPoint }]
    pendingRate := some .r115200
    cache := [{ tag := 0x09#8, kind := 0x04#8
                frame := { kind := 0x84#8, tag := 0x09#8, body := [0x00#8, 0x06#8, 0x01#8, 0xC2#8, 0x00#8] } }] }

theorem witness_StepKeepsTheSlotLaws :
    busyHub.SlotsFit ∧ busyHub.IntakeTagsDistinct ∧ busyHub.CacheSound ∧ ∃ t, step busyHub = .next t :=
  ⟨by decide, by decide, by decide, _, rfl⟩

theorem witness_StepKeepsTheReplyMarks : busyHub.MarksKept ∧ ∃ t, step busyHub = .next t := ⟨by decide, _, rfl⟩

theorem witness_StepKeepsTheQueueLaws :
    busyHub.RecordsAtHome ∧ busyHub.ClassesKept ∧ busyHub.QueuesFit ∧ busyHub.IdleSelected ∧ ∃ t, step busyHub = .next t :=
  ⟨by decide, by decide, by decide, by decide, _, rfl⟩

theorem witness_StepKeepsThePoolAndTicketLaws :
    busyHub.PollRecordsHeld ∧ busyHub.PoolHolds ∧ busyHub.StoreOrdered ∧ busyHub.WaitersAreHost ∧ busyHub.TicketsDistinct ∧
    ∃ t, step busyHub = .next t :=
  ⟨by decide, by decide, by decide, by decide, by decide, _, rfl⟩

/-- Each bus of the busy hub holds the byte its engine has to send. -/
theorem sending_busyHub : busyHub.SendingKept := by
  have none_sent (b : BusId) (h : (busyHub.bus b).engine = .off) (hs : (busyHub.bus b).sending = none)
      (hp : (busyHub.bus b).bitsPlaced = 0) : (busyHub.bus b).sendsRightly := by
    unfold Bus.sendsRightly
    rw [h, hp]
    exact ⟨Nat.zero_le 9, fun _ => rfl, hs⟩
  intro _ b
  match b with
  | 0 => exact ⟨by decide, by decide, (by decide : (busyHub.bus 0).sending = (Work.record job).writeByte?)⟩
  | 1 => exact none_sent 1 (by decide) (by decide) (by decide)
  | 2 => exact none_sent 2 (by decide) (by decide) (by decide)
  | 3 => exact none_sent 3 (by decide) (by decide) (by decide)

/-- Each bus of the busy hub does to its lines what its engine's state calls for. -/
theorem outputs_busyHub : busyHub.OutputsKept := by
  have none_driven (b : BusId) (h : (busyHub.bus b).engine = .off) (hc : (busyHub.bus b).clockOut = .released)
      (hd : (busyHub.bus b).dataOut = .released) : (busyHub.bus b).outputsRight := by
    unfold Bus.outputsRight
    rw [h]
    exact ⟨hc, hd⟩
  intro _ b
  match b with
  | 0 => exact (by decide : (busyHub.bus 0).dataOut = (busyHub.bus 0).bitDrive)
  | 1 => exact none_driven 1 (by decide) (by decide) (by decide)
  | 2 => exact none_driven 2 (by decide) (by decide) (by decide)
  | 3 => exact none_driven 3 (by decide) (by decide) (by decide)

/-- No bus of the busy hub is in CLEARING. -/
theorem pulses_busyHub : busyHub.PulsesFit := by
  intro b kept n stage h
  have hb : (busyHub.bus b).engine.value ≠ 0x05#8 := (by decide : ∀ b, (busyHub.bus b).engine.value ≠ 0x05#8) b
  rw [h] at hb
  exact absurd rfl hb

theorem witness_StepKeepsTheLineAndInboundLaws :
    busyHub.IdleLinesFree ∧ busyHub.LinesHeld ∧ busyHub.FreeLinesHigh ∧ busyHub.SendingKept ∧ busyHub.OutputsKept ∧
    busyHub.PulsesFit ∧ busyHub.InboundFits ∧ ∃ t, step busyHub = .next t :=
  ⟨by decide, by decide, by decide, sending_busyHub, outputs_busyHub, pulses_busyHub, by decide, _, rfl⟩

theorem witness_StepKeepsTheTargetsInUse :
    busyHub.RecordsAtHome ∧ busyHub.TargetsUsed ∧ busyHub.PollsFollowTargets ∧ busyHub.QueuesOutOfQuarantine ∧
    busyHub.OwnAddressesApart ∧ busyHub.AddressesSent ∧ ∃ t, step busyHub = .next t := by
  refine ⟨by decide, by decide, by decide, by decide, by decide, fun _ b t h => ?_, _, rfl⟩
  have hb : (busyHub.bus b).engine.phaseField ≠ 0x02#8 := (by decide : ∀ b, (busyHub.bus b).engine.phaseField ≠ 0x02#8) b
  rw [h] at hb
  exact absurd rfl hb

theorem witness_StepKeepsTheDirectoryLaws :
    busyHub.TargetsDistinct ∧ busyHub.OwnAddressesApart ∧ busyHub.ProbesInQuarantine ∧ busyHub.ProbesHeld ∧
    ∃ t, step busyHub = .next t :=
  ⟨by decide, by decide, by decide, by decide, _, rfl⟩

end Sys2Proof.Tests
end

section
/-! SUPPORT. Reading back the numbers and the optional fields of a request body (R173, R175): what the readers make of the
bytes that the fields are laid out in. -/

namespace Sys2Proof.Machine

theorem byteOf_toNat {n : Nat} (h : n < 256) : (byteOf n).toNat = n := by
  simp [byteOf, Nat.mod_eq_of_lt h]

theorem nat16_byteOf {n : Nat} (h : n < 65536) : nat16 (byteOf (n / 256)) (byteOf n) = n := by
  simp only [nat16, byteOf, BitVec.toNat_ofNat]
  omega

/-- An optional two-byte field is read back from where it stands. -/
theorem optional16_elim {o : Option Nat} (h : optionFits 65536 o) (rest : List Byte) :
    optional16 o.isSome (o.elim [] bytes16 ++ rest) = some (o, rest) := by
  cases o with
  | none => rfl
  | some n => simp [bytes16, optional16, nat16_byteOf (h n rfl)]

/-- An optional one-byte field is read back from where it stands. -/
theorem optional8_elim {o : Option Nat} (h : optionFits 256 o) (rest : List Byte) :
    optional8 o.isSome (o.elim [] (fun n => [byteOf n]) ++ rest) = some (o, rest) := by
  cases o with
  | none => rfl
  | some n => simp [optional8, byteOf_toNat (h n rfl)]

theorem handleOf?_eq_some_iff (b : Byte) (h : Handle) : handleOf? b = some h ↔ b.toNat = h.val := by
  unfold handleOf?
  split
  · simp [Fin.ext_iff]
  · have := h.isLt
    simp only [reduceCtorEq, false_iff]
    omega

theorem classOf?_eq_some_iff (b : Byte) (c : TxnClass) : classOf? b = some c ↔ b = c.value := by
  by_cases h : b = 0x00#8
  · cases c <;> simp [classOf?, TxnClass.value, h]
  · cases c <;> simp [classOf?, TxnClass.value, h]

theorem optionInRange_iff (lo hi : Nat) (o : Option Nat) :
    optionInRange lo hi o = true ↔ ∀ n ∈ o, lo ≤ n ∧ n ≤ hi := by
  cases o <;> simp [optionInRange]

/-- Mapping a partial function over a list answers the images in order, when every member has one. -/
theorem mapM_eq_some_iff_forall₂ {α β : Type} (f : α → Option β) (l : List α) (l' : List β) :
    l.mapM f = some l' ↔ List.Forall₂ (fun a b => f a = some b) l l' := by
  induction l generalizing l' with
  | nil => simp [eq_comm]
  | cons a l ih =>
    simp only [List.mapM_cons, Option.bind_eq_bind, Option.bind_eq_some_iff, Option.pure_def, Option.some.injEq, ih,
      List.forall₂_cons_left_iff]
    grind

end Sys2Proof.Machine
end

section
/-! SUPPORT. The body of a SUBMIT and the values of its fields (Table 10-4, R14, R175): fields a body can hold are read back
from it, and their values are in range exactly when the fields have a meaning. -/

namespace Sys2Proof.Machine

/-! ### The body -/

/-- The segments of a body are read back from where they stand. -/
theorem segmentFields_flatMap_body {gs : List SegmentField} (h : ∀ g ∈ gs, g.shaped) :
    segmentFields gs.length (gs.flatMap SegmentField.body) = some gs := by
  induction gs with
  | nil => rfl
  | cons g gs ih =>
    obtain ⟨hg, hgs⟩ := List.forall_mem_cons.mp h
    obtain ⟨d, l, bytes⟩ := g
    by_cases hd : d = 0x00#8
    · have hl : l.toNat = bytes.length := by simpa [SegmentField.shaped, hd, eq_comm] using hg
      simp [SegmentField.body, segmentFields, hd, hl, ih hgs]
    · have hb : bytes = [] := by simpa [SegmentField.shaped, hd] using hg
      simp [SegmentField.body, segmentFields, hd, hb, ih hgs]

/-- The options byte of a SUBMIT: bit 0 marks a deadline, bit 1 an attempts value. -/
def SubmitFields.options (f : SubmitFields) : Byte := byteOf (bit f.deadline.isSome + 2 * bit f.attempts.isSome)

theorem SubmitFields.options_lt (f : SubmitFields) : f.options.toNat < 4 := by
  unfold SubmitFields.options
  cases f.deadline.isSome <;> cases f.attempts.isSome <;> decide

theorem SubmitFields.options_deadline (f : SubmitFields) : f.options.getLsbD 0 = f.deadline.isSome := by
  unfold SubmitFields.options
  cases f.deadline.isSome <;> cases f.attempts.isSome <;> decide

theorem SubmitFields.options_attempts (f : SubmitFields) : f.options.getLsbD 1 = f.attempts.isSome := by
  unfold SubmitFields.options
  cases f.deadline.isSome <;> cases f.attempts.isSome <;> decide

theorem SubmitFields.body_eq (f : SubmitFields) :
    f.body = f.handle :: f.cls :: f.options :: (f.deadline.elim [] bytes16 ++
      (f.attempts.elim [] (fun n => [byteOf n]) ++
        byteOf f.segments.length :: f.segments.flatMap SegmentField.body)) := by
  obtain ⟨handle, cls, deadline, attempts, segments⟩ := f
  cases deadline <;> cases attempts <;> simp [SubmitFields.body, SubmitFields.options]

/-- A body with a segment has at least six bytes: handle, class, options, count, direction and length. -/
theorem SubmitFields.six_le_body {f : SubmitFields} (h : 1 ≤ f.segments.length) : 6 ≤ f.body.length := by
  obtain ⟨g, gs, hs⟩ := List.exists_cons_of_length_pos h
  simp only [f.body_eq, hs, List.flatMap_cons, SegmentField.body, List.length_cons, List.length_append]
  omega

/-- The fields a SUBMIT body can hold are read back from it (R175). -/
theorem submitFields_body {f : SubmitFields} (h : f.shaped) : submitFields f.body = some f := by
  obtain ⟨hdeadline, hattempts, hone, hfour, hsegments, hlong⟩ := h
  have hshort := SubmitFields.six_le_body hone
  have hcount : (byteOf f.segments.length).toNat = f.segments.length := byteOf_toNat (by omega)
  rw [f.body_eq] at hshort hlong ⊢
  simp only [submitFields, hshort, hlong, f.options_lt, f.options_deadline, f.options_attempts,
    optional16_elim hdeadline, optional8_elim hattempts, hcount, hone, hfour, segmentFields_flatMap_body hsegments,
    and_self, if_true, Option.map_some]

/-! ### The values -/

theorem segmentOf?_eq_some_iff (g : SegmentField) (x : Segment) : segmentOf? g = some x ↔ g.means x := by
  unfold segmentOf? SegmentField.means
  by_cases hw : g.direction = 0x00#8
  · simp [hw, eq_comm, and_assoc]
  · simp [hw, eq_comm, and_assoc]

/-- A segment is as long as its length field says. -/
theorem SegmentField.means_length {g : SegmentField} {x : Segment} (hg : g.shaped) (hm : g.means x) :
    x.length = g.length.toNat := by
  obtain ⟨-, -, ⟨hd, rfl⟩ | ⟨-, rfl⟩⟩ := hm
  · simpa [SegmentField.shaped, Segment.length, hd] using hg
  · rfl

theorem segmentsLength_of_means {gs : List SegmentField} {xs : List Segment} (hg : ∀ g ∈ gs, g.shaped)
    (hm : List.Forall₂ SegmentField.means gs xs) : segmentsLength xs = (gs.map fun g => g.length.toNat).sum := by
  unfold segmentsLength
  induction hm with
  | nil => rfl
  | cons hx _ ih =>
    obtain ⟨hhead, htail⟩ := List.forall_mem_cons.mp hg
    simp [SegmentField.means_length hhead hx, ih htail]

theorem mapM_segmentOf?_eq_some_iff (gs : List SegmentField) (xs : List Segment) :
    gs.mapM segmentOf? = some xs ↔ List.Forall₂ SegmentField.means gs xs := by
  simp only [mapM_eq_some_iff_forall₂, segmentOf?_eq_some_iff]

/-- What a SUBMIT means is what the readers of its fields find, within the bounds of R14's first check. -/
theorem SubmitFields.means_iff {f : SubmitFields} (hf : f.shaped) (h : Handle) (cls : TxnClass)
    (segments : List Segment) :
    f.means h cls segments ↔
      handleOf? f.handle = some h ∧ classOf? f.cls = some cls ∧ f.segments.mapM segmentOf? = some segments ∧
      segmentsLength segments ≤ 64 ∧ optionInRange 1 65000 f.deadline = true ∧ optionInRange 1 8 f.attempts = true := by
  obtain ⟨-, -, -, -, hsegments, -⟩ := hf
  unfold SubmitFields.means
  rw [handleOf?_eq_some_iff, classOf?_eq_some_iff, mapM_segmentOf?_eq_some_iff, optionInRange_iff, optionInRange_iff]
  refine and_congr_right fun _ => and_congr (by cases cls <;> rfl) (and_congr_right fun hm => ?_)
  rw [segmentsLength_of_means hsegments hm]

/-- A SUBMIT that means something has its values in range (R14, check 1). -/
theorem submitValues_of_means {f : SubmitFields} (hf : f.shaped) {h : Handle} {cls : TxnClass}
    {segments : List Segment} (hm : f.means h cls segments) :
    submitValues f = some
      { handle := h, cls := cls, deadline := f.deadline, attempts := f.attempts, segments := segments } := by
  obtain ⟨hh, hc, hs, hlen, hd, ha⟩ := (SubmitFields.means_iff hf h cls segments).mp hm
  simp [submitValues, hh, hc, hs, hlen, hd, ha]

/-- Fields that mean nothing have a value out of range (R14, check 1). -/
theorem submitValues_of_not_means {f : SubmitFields} (hf : f.shaped)
    (hn : ∀ h cls segments, ¬ f.means h cls segments) : submitValues f = none := by
  simp only [SubmitFields.means_iff hf] at hn
  unfold submitValues
  split
  next h cls segments hh hc hs =>
    exact if_neg fun hr => hn h cls segments ⟨hh, hc, hs, by simpa [and_assoc] using hr⟩
  all_goals rfl

end Sys2Proof.Machine
end

section
/-! SUPPORT. The checks of SUBMIT in the order of R14, one lemma for each refusal. -/

namespace Sys2Proof.Machine

theorem answerSubmit_badValue {f : SubmitFields} (hf : f.shaped) (hn : ∀ h cls segments, ¬ f.means h cls segments)
    (s : State) : answerSubmit f.body s = (s, Answer.refuse .badValue) := by
  simp [answerSubmit, submitFields_body hf, submitValues_of_not_means hf hn]

/-- A SUBMIT with every field in its range goes on to checks 2 to 6. -/
theorem answerSubmit_of_means {f : SubmitFields} (hf : f.shaped) {h : Handle} {cls : TxnClass} {segments : List Segment}
    (hm : f.means h cls segments) (s : State) :
    answerSubmit f.body s = acceptSubmit
      { handle := h, cls := cls, deadline := f.deadline, attempts := f.attempts, segments := segments } s := by
  simp [answerSubmit, submitFields_body hf, submitValues_of_means hf hm]

theorem Engine.refusesWork_iff (e : Engine) : e.refusesWork = true ↔ e = .off ∨ e = .faulted := by
  cases e <;> simp [Engine.refusesWork]

theorem Bus.room_eq_zero_iff (x : Bus) : x.room = 0 ↔ 16 ≤ x.records.length := Nat.sub_eq_zero_iff_le

theorem State.freeRecords_eq_zero_iff (s : State) : s.freeRecords = 0 ↔ 48 ≤ s.recordsTaken := Nat.sub_eq_zero_iff_le

section
variable {s : State} {v : SubmitValues} {e : Entry}

theorem acceptSubmit_unknownHandle (he : s.entry v.handle = none) :
    acceptSubmit v s = (s, Answer.refuse .unknownHandle) := by
  simp [acceptSubmit, he]

theorem acceptSubmit_quarantined (he : s.entry v.handle = some e) (hq : e.state = .quarantined) :
    acceptSubmit v s = (s, Answer.refuse .quarantined) := by
  simp [acceptSubmit, he, hq]

theorem acceptSubmit_busOff (he : s.entry v.handle = some e) (hq : e.state ≠ .quarantined)
    (hw : (s.bus e.bus).engine.refusesWork = true) : acceptSubmit v s = (s, Answer.refuse .busOff) := by
  simp [acceptSubmit, he, hq, hw]

theorem acceptSubmit_queueFull (he : s.entry v.handle = some e) (hq : e.state ≠ .quarantined)
    (hw : (s.bus e.bus).engine.refusesWork = false) (hroom : (s.bus e.bus).room = 0) :
    acceptSubmit v s = (s, Answer.refuse .queueFull) := by
  simp [acceptSubmit, he, hq, hw, hroom]

theorem acceptSubmit_poolEmpty (he : s.entry v.handle = some e) (hq : e.state ≠ .quarantined)
    (hw : (s.bus e.bus).engine.refusesWork = false) (hroom : (s.bus e.bus).room ≠ 0) (hfree : s.freeRecords = 0) :
    acceptSubmit v s = (s, Answer.refuse .poolEmpty) := by
  simp [acceptSubmit, he, hq, hw, hroom, hfree]

end

/-- A ready SUBMIT whose owner refuses it replies with the code, and all it changes is that the request leaves the intake. -/
theorem replies_submit_refuse {s : State} {tag : Byte} {f : SubmitFields} {code : ReplyCode} (hf : f.shaped)
    (hs : s.ready { kind := 0x10#8, tag := tag, body := f.body })
    (ho : answerSubmit f.body s.taking = (s.taking, Answer.refuse code)) :
    Replies (.submit tag f.body) s s.taking 0x10#8 tag code [] .plain := by
  obtain ⟨-, -, -, -, -, hlong⟩ := hf
  exact replies_of_owner (owner := answerSubmit f.body) rfl hs hlong ho (.inr rfl)

/-- Settles O29: the checks of R14 in their order, each refusal by the lemma of its check. -/
theorem submitIsRefusedInOrder : Obligations.SubmitIsRefusedInOrder := by
  intro s tag f hs hf
  have refuse {code : ReplyCode} := replies_submit_refuse (code := code) hf hs
  refine ⟨fun hn => refuse (answerSubmit_badValue hf hn s.taking), fun h cls segments hm => ?_⟩
  rw [answerSubmit_of_means hf hm s.taking] at refuse
  refine ⟨fun he => refuse (acceptSubmit_unknownHandle he), fun e he => ?_⟩
  refine ⟨fun hq => refuse (acceptSubmit_quarantined he hq), fun hq => ?_⟩
  refine ⟨fun hoff => refuse (acceptSubmit_busOff he hq ((Engine.refusesWork_iff _).mpr hoff)), fun hoff hfaulted => ?_⟩
  have hworks : (s.bus e.bus).engine.refusesWork = false := by
    simp [Bool.eq_false_iff, Engine.refusesWork_iff, hoff, hfaulted]
  refine ⟨fun hfull => refuse (acceptSubmit_queueFull he hq hworks ((Bus.room_eq_zero_iff _).mpr hfull)),
    fun hplaces htaken => ?_⟩
  have hroom : (s.bus e.bus).room ≠ 0 := mt (Bus.room_eq_zero_iff _).mp (by omega)
  exact refuse (acceptSubmit_poolEmpty he hq hworks hroom ((State.freeRecords_eq_zero_iff s).mpr htaken))

end Sys2Proof.Machine
end

section
/-! SUPPORT. The body of a TARGET_ADD and the values of its fields (Table 10-4, R92, R175): fields a body can hold are read
back from it, and they make an entry exactly when they have a meaning. -/

namespace Sys2Proof.Machine

/-! ### The body -/

/-- The terms byte of a TARGET_ADD: one bit for each optional field. -/
def TargetFields.terms (f : TargetFields) : Byte :=
  byteOf (bit f.attempts.isSome + 2 * bit f.retryGap.isSome + 4 * bit f.threshold.isSome + 8 * bit f.probeInterval.isSome)

/-- Four marks in one byte are read back bit by bit. -/
theorem fourMarks_bits : ∀ a g t p : Bool,
    let marks := byteOf (bit a + 2 * bit g + 4 * bit t + 8 * bit p)
    marks.toNat < 16 ∧ marks.getLsbD 0 = a ∧ marks.getLsbD 1 = g ∧ marks.getLsbD 2 = t ∧ marks.getLsbD 3 = p := by
  decide

theorem TargetFields.body_eq (f : TargetFields) :
    f.body = f.bus :: f.address :: f.terms :: (f.attempts.elim [] (fun n => [byteOf n]) ++
      (f.retryGap.elim [] bytes16 ++ (f.threshold.elim [] (fun n => [byteOf n]) ++
        (f.probeInterval.elim [] bytes16 ++ [])))) := by
  obtain ⟨bus, address, _ | attempts, _ | retryGap, _ | threshold, _ | probeInterval⟩ := f <;> rfl

/-- The fields a TARGET_ADD body can hold are read back from it (R175). -/
theorem targetFields_body {f : TargetFields} (h : f.shaped) : targetFields f.body = some f := by
  obtain ⟨hattempts, hgap, hthreshold, hinterval⟩ := h
  obtain ⟨hlt, h0, h1, h2, h3⟩ : f.terms.toNat < 16 ∧ f.terms.getLsbD 0 = f.attempts.isSome ∧
      f.terms.getLsbD 1 = f.retryGap.isSome ∧ f.terms.getLsbD 2 = f.threshold.isSome ∧
      f.terms.getLsbD 3 = f.probeInterval.isSome := fourMarks_bits _ _ _ _
  rw [f.body_eq]
  simp only [targetFields, hlt, h0, h1, h2, h3, optional8_elim hattempts, optional16_elim hgap,
    optional8_elim hthreshold, optional16_elim hinterval, if_true]

theorem optional8_length_le (o : Option Nat) : (o.elim [] fun n => [byteOf n]).length ≤ 1 := by
  cases o <;> simp

theorem optional16_length_le (o : Option Nat) : (o.elim [] bytes16).length ≤ 2 := by
  cases o <;> simp [bytes16]

/-- The body of a TARGET_ADD has at most nine bytes. -/
theorem TargetFields.body_le_nine (f : TargetFields) : f.body.length ≤ 9 := by
  have hattempts := optional8_length_le f.attempts
  have hgap := optional16_length_le f.retryGap
  have hthreshold := optional8_length_le f.threshold
  have hinterval := optional16_length_le f.probeInterval
  simp only [f.body_eq, List.length_cons, List.length_append, List.length_nil]
  omega

/-! ### The values -/

theorem busOf?_eq_some_iff (n : Byte) (b : BusId) : busOf? n = some b ↔ n.toNat = b.val := by
  unfold busOf?
  split
  · simp [Fin.ext_iff]
  · have := b.isLt
    simp only [reduceCtorEq, false_iff]
    omega

theorem addressOf?_eq_some_iff (n : Byte) (a : BusAddress) :
    addressOf? n = some a ↔ n.toNat = a.toNat ∧ 8 ≤ a.toNat ∧ a.toNat ≤ 119 := by
  unfold addressOf?
  split
  next hn =>
    have hmod : n.toNat % 2 ^ 7 = n.toNat := Nat.mod_eq_of_lt (by omega)
    rw [Option.some.injEq, ← BitVec.toNat_inj, BitVec.toNat_ofNat, hmod]
    omega
  next hn =>
    simp only [reduceCtorEq, false_iff]
    omega

/-- The entry that a TARGET_ADD makes for a bus and an address: NEW, with the terms given or their defaults (R93). -/
def TargetFields.newEntry (f : TargetFields) (b : BusId) (a : BusAddress) : Entry :=
  { state := .new, bus := b, address := a, attempts := f.attempts.getD 3
    retryGap := f.retryGap.getD 10, threshold := f.threshold.getD 4
    probeInterval := f.probeInterval.getD 1000, refusals := 0, probe := .none, changed := false }

/-- What a TARGET_ADD means is what the readers of its fields find, within the bounds of R92's first check. -/
theorem TargetFields.means_iff (f : TargetFields) (b : BusId) (a : BusAddress) :
    f.means b a ↔ busOf? f.bus = some b ∧ addressOf? f.address = some a ∧
      (optionInRange 1 8 f.attempts && optionInRange 1 1000 f.retryGap && optionInRange 1 32 f.threshold
        && optionInRange 100 60000 f.probeInterval) = true := by
  simp only [TargetFields.means, busOf?_eq_some_iff, addressOf?_eq_some_iff, Bool.and_eq_true, optionInRange_iff,
    and_assoc]

/-- A TARGET_ADD that means something makes the entry of its bus and address (R92, check 1). -/
theorem targetEntry_of_means {f : TargetFields} {b : BusId} {a : BusAddress} (hm : f.means b a) :
    targetEntry f = some (f.newEntry b a) := by
  obtain ⟨hb, ha, hr⟩ := (f.means_iff b a).mp hm
  simp only [targetEntry, hb, ha, hr, if_true, TargetFields.newEntry]

/-- Fields that mean nothing have a value out of range (R92, check 1). -/
theorem targetEntry_of_not_means {f : TargetFields} (hn : ∀ b a, ¬ f.means b a) : targetEntry f = none := by
  simp only [TargetFields.means_iff] at hn
  unfold targetEntry
  split
  next b a hb ha => exact if_neg fun hr => hn b a ⟨hb, ha, hr⟩
  all_goals rfl

end Sys2Proof.Machine
end

section
/-! SUPPORT. The searches of the directory (R92, R93): the first free handle, and an entry that has a bus and address. -/

namespace Sys2Proof.Machine

theorem State.freeHandle_eq_find? (s : State) : s.freeHandle = Fin.find? fun h => (s.entry h).isNone :=
  Fin.find?_eq_find?_finRange.symm

theorem State.freeHandle_eq_none_iff (s : State) : s.freeHandle = none ↔ ∀ h, s.entry h ≠ none := by
  simp only [State.freeHandle_eq_find?, Fin.find?_eq_none_iff, Option.isNone_eq_false_iff, Option.isSome_iff_ne_none]

/-- The free handle is the lowest of those that are not in use. -/
theorem State.freeHandle_eq_some_iff (s : State) (h : Handle) :
    s.freeHandle = some h ↔ s.entry h = none ∧ ∀ k, k < h → s.entry k ≠ none := by
  simp only [State.freeHandle_eq_find?, Fin.find?_eq_some_iff, Option.isNone_iff_eq_none, Option.isNone_eq_false_iff,
    Option.isSome_iff_ne_none]

theorem State.targetNamed_iff (s : State) (b : BusId) (a : BusAddress) :
    s.targetNamed b a = true ↔ ∃ k e, s.entry k = some e ∧ e.bus = b ∧ e.address = a := by
  simp only [State.targetNamed, allHandles, List.any_eq_true, List.mem_finRange, true_and]
  refine exists_congr fun k => ?_
  cases s.entry k <;> simp

end Sys2Proof.Machine
end

section
/-! SUPPORT. The checks of TARGET_ADD in the order of R92, one lemma for each refusal, and the entry taken (R93). -/

namespace Sys2Proof.Machine

theorem answerTargetAdd_badValue {f : TargetFields} (hf : f.shaped) (hn : ∀ b a, ¬ f.means b a) (s : State) :
    answerTargetAdd f.body s = (s, Answer.refuse .badValue) := by
  simp only [answerTargetAdd, targetFields_body hf, targetEntry_of_not_means hn]

/-- A TARGET_ADD with every field in its range goes on to checks 2 to 4. -/
theorem answerTargetAdd_of_means {f : TargetFields} (hf : f.shaped) {b : BusId} {a : BusAddress} (hm : f.means b a)
    (s : State) : answerTargetAdd f.body s = addTarget (f.newEntry b a) s := by
  simp only [answerTargetAdd, targetFields_body hf, targetEntry_of_means hm]

section
variable {s : State} {e : Entry} {h : Handle}

theorem addTarget_tableFull (hfull : s.freeHandle = none) : addTarget e s = (s, Answer.refuse .tableFull) := by
  simp only [addTarget, hfull]

theorem addTarget_duplicate (hfree : s.freeHandle = some h) (hd : s.targetNamed e.bus e.address = true) :
    addTarget e s = (s, Answer.refuse .duplicate) := by
  simp only [addTarget, hfree, hd, if_true]

theorem addTarget_conflict (hfree : s.freeHandle = some h) (hd : s.targetNamed e.bus e.address = false)
    (hown : (s.bus e.bus).ownAddress = some e.address) : addTarget e s = (s, Answer.refuse .conflict) := by
  simp [addTarget, hfree, hd, hown]

theorem addTarget_ok (hfree : s.freeHandle = some h) (hd : s.targetNamed e.bus e.address = false)
    (hown : (s.bus e.bus).ownAddress ≠ some e.address) :
    addTarget e s = (s.setEntry h (some e), Answer.ok [byteOf h.val]) := by
  simp [addTarget, hfree, hd, hown]

end

/-- A ready TARGET_ADD replies with its owner's answer. -/
theorem replies_targetAdd {s u : State} {tag : Byte} {f : TargetFields} {code : ReplyCode} {fields : List Byte}
    (hs : s.ready { kind := 0x30#8, tag := tag, body := f.body })
    (ho : answerTargetAdd f.body s.taking = (u, { code := code, fields := fields, mark := .plain }))
    (hc : code = .ok ∨ fields = []) : Replies (.targetAdd tag f.body) s u 0x30#8 tag code fields .plain :=
  replies_of_owner (owner := answerTargetAdd f.body) rfl hs (f.body_le_nine.trans (by decide)) ho hc

/-- Settles O34: the checks of R92 in their order, each refusal by the lemma of its check, then the entry of R93. -/
theorem targetAddTakesTheLowestHandle : Obligations.TargetAddTakesTheLowestHandle := by
  intro s tag f hs hf refused
  have refuse {code : ReplyCode} (ho : answerTargetAdd f.body s.taking = (s.taking, Answer.refuse code)) :
      refused code := replies_targetAdd hs ho (.inr rfl)
  refine ⟨fun hn => refuse (answerTargetAdd_badValue hf hn s.taking), fun b a hm => ?_⟩
  have answer := answerTargetAdd_of_means hf hm s.taking
  refine ⟨fun hfull => refuse (answer.trans (addTarget_tableFull ((State.freeHandle_eq_none_iff s.taking).mpr hfull))),
    fun h hfree hmin => ?_⟩
  have hh : s.taking.freeHandle = some h := (State.freeHandle_eq_some_iff s.taking h).mpr ⟨hfree, hmin⟩
  refine ⟨fun hd => refuse (answer.trans (addTarget_duplicate hh ((State.targetNamed_iff _ b a).mpr hd))), fun hd => ?_⟩
  have hfresh : s.taking.targetNamed b a = false := by
    rw [Bool.eq_false_iff, ne_eq, State.targetNamed_iff]
    exact fun ⟨k, e, he, hba⟩ => hd k e he hba
  exact ⟨fun hown => refuse (answer.trans (addTarget_conflict hh hfresh hown)),
    fun hown => replies_targetAdd hs (answer.trans (addTarget_ok hh hfresh hown)) (.inl rfl)⟩

end Sys2Proof.Machine
end

section
/-! SUPPORT. What the outcome of a poll's record does to its poll entry: the rows of R119 that report a new value, the row
that finds the last value again, and R120; then the decision that hands the outcome on (R18). -/

namespace Sys2Proof.Machine

/-- The rows of R119 that report a new value: there is no last value, the policy is EVERY, or the masked values differ. -/
theorem Poll.takeOk_of_news {p : Poll} {bytes : List Byte}
    (hnews : ∀ v, p.lastValue = some v → p.policy = .change → maskBytes p.mask v ≠ maskBytes p.mask bytes) :
    p.takeOk bytes = { p with lastValue := some bytes, lastOutcome := some .ok, failCount := 0, changed := true } := by
  unfold Poll.takeOk
  cases hv : p.lastValue with
  | none => simp
  | some v =>
    cases hp : p.policy with
    | every => simp
    | change => simp [hnews v hv hp]

/-- The row of R119 for a CHANGE poll that reads its last value again under the mask. -/
theorem Poll.takeOk_of_same {p : Poll} {v bytes : List Byte} (hv : p.lastValue = some v) (hp : p.policy = .change)
    (hsame : maskBytes p.mask v = maskBytes p.mask bytes) :
    p.takeOk bytes = { p with lastOutcome := some .ok, failCount := 0,
                              changed := p.changed || decide (p.lastOutcome ≠ some .ok) } := by
  simp [Poll.takeOk, hv, hp, hsame, bne, beq_eq_decide]

theorem Poll.takeFailure_eq (p : Poll) (o : TxnOutcome) :
    p.takeFailure o = { p with lastOutcome := some o, failCount := rise 255 p.failCount,
                               changed := p.changed || decide (p.lastOutcome ≠ some o) } := by
  simp [Poll.takeFailure, rise, satSucc, bne, beq_eq_decide]

section
variable {s : State} {t : Txn} {i : PollIndex} {p : Poll}

theorem conclude_poll_ok (ht : t.origin = .poll i false) (hp : s.poll i = some p) :
    s.conclude t .ok = s.setPoll i (some (p.takeOk t.progress.readBytes)) := by
  simp [State.conclude, ht, State.pollOutcome, hp]

theorem conclude_poll_failed (ht : t.origin = .poll i false) (hp : s.poll i = some p) {o : TxnOutcome}
    (ho : o ≠ .ok) : s.conclude t o = s.setPoll i (some (p.takeFailure o)) := by
  simp [State.conclude, ht, State.pollOutcome, hp, ho]

end

/-- Settles O21: OK by whether the poll finds its last value again (R119), any other outcome by R120. -/
theorem instanceOutcomesReachThePoll : Obligations.InstanceOutcomesReachThePoll := by
  intro s t o i p ht hp
  by_cases ho : o = .ok
  · subst ho
    have hq := conclude_poll_ok ht hp
    by_cases hnews : ∀ v, p.lastValue = some v → p.policy = .change →
        maskBytes p.mask v ≠ maskBytes p.mask t.progress.readBytes
    · rw [Poll.takeOk_of_news hnews] at hq
      exact ⟨_, hq, rfl, fun _ => ⟨rfl, fun _ => ⟨rfl, rfl⟩,
        fun v hv hc => ⟨fun _ => ⟨rfl, rfl⟩, fun hsame => absurd hsame (hnews v hv hc)⟩⟩, fun hne => absurd rfl hne⟩
    · push Not at hnews
      obtain ⟨v, hv, hc, hsame⟩ := hnews
      rw [Poll.takeOk_of_same hv hc hsame] at hq
      refine ⟨_, hq, rfl, fun _ => ⟨rfl, ?_, ?_⟩, fun hne => absurd rfl hne⟩
      · simp [hv, hc]
      · rintro w hw -
        obtain rfl : v = w := Option.some.inj (hv.symm.trans hw)
        exact ⟨fun hne => absurd hsame hne, fun _ => ⟨hv, rfl⟩⟩
  · have hq := conclude_poll_failed ht hp ho
    rw [p.takeFailure_eq] at hq
    exact ⟨_, hq, rfl, fun hok => absurd hok ho, fun _ => ⟨rfl, rfl, rfl⟩⟩

end Sys2Proof.Machine
end

section
/-! SUPPORT. The body of a POLL_SET and the values of its fields (Table 10-4, R113, R175): fields a body can hold are read
back from it, and their values are in range exactly when the fields have a meaning. -/

namespace Sys2Proof.Machine

/-! ### The body -/

theorem PollFields.body_eq (f : PollFields) :
    f.body = f.index :: f.handle :: f.cls :: f.policy :: byteOf (f.period / 256) :: byteOf f.period ::
      byteOf f.writeBytes.length :: (f.writeBytes ++ byteOf f.readLength :: f.mask) := by
  simp [PollFields.body, bytes16]

theorem PollFields.body_length_le {f : PollFields} (h : f.shaped) : f.body.length ≤ 240 := by
  obtain ⟨-, hmask, hlong⟩ := h
  simp only [f.body_eq, List.length_cons, List.length_append]
  omega

/-- The fields a POLL_SET body can hold are read back from it (R175). -/
theorem pollFields_body {f : PollFields} (h : f.shaped) : pollFields f.body = some f := by
  have hbody := PollFields.body_length_le h
  obtain ⟨hperiod, hmask, hlong⟩ := h
  have hwrite : (byteOf f.writeBytes.length).toNat = f.writeBytes.length := byteOf_toNat (by omega)
  have hread : (byteOf f.readLength).toNat = f.readLength := byteOf_toNat (by omega)
  rw [f.body_eq] at hbody ⊢
  simp only [pollFields, hwrite, hread, List.drop_left, List.take_left, hbody, hmask, nat16_byteOf hperiod, and_self,
    if_true]

/-! ### The values -/

theorem pollOf?_eq_some_iff (n : Byte) (i : PollIndex) : pollOf? n = some i ↔ n.toNat = i.val := by
  unfold pollOf?
  split
  · simp [Fin.ext_iff]
  · have := i.isLt
    simp only [reduceCtorEq, false_iff]
    omega

theorem policyOf?_eq_change_iff (n : Byte) : policyOf? n = some .change ↔ n = 0x00#8 := by
  by_cases h : n = 0x00#8 <;> simp [policyOf?, h]

theorem policyOf?_eq_every_iff (n : Byte) : policyOf? n = some .every ↔ n = 0x01#8 := by
  by_cases h : n = 0x00#8 <;> simp [policyOf?, h]

/-- What a POLL_SET means is what the readers of its fields find, within the bounds of R113's first check. -/
theorem PollFields.means_iff (f : PollFields) (i : PollIndex) (h : Handle) (cls : TxnClass) (policy : Policy) :
    f.means i h cls policy ↔
      pollOf? f.index = some i ∧ handleOf? f.handle = some h ∧ classOf? f.cls = some cls ∧
      policyOf? f.policy = some policy ∧
      (10 ≤ f.period ∧ f.period ≤ 65000 ∧ f.writeBytes.length ≤ 4 ∧ 1 ≤ f.readLength ∧ f.readLength ≤ 8) := by
  unfold PollFields.means
  rw [pollOf?_eq_some_iff, handleOf?_eq_some_iff, classOf?_eq_some_iff]
  refine and_congr_right fun _ => and_congr_right fun _ => and_congr (by cases cls <;> rfl) (and_congr_left fun _ => ?_)
  cases policy with
  | change => exact (policyOf?_eq_change_iff _).symm
  | every => exact (policyOf?_eq_every_iff _).symm

/-- The values a POLL_SET gives to the poll, target, class and policy it names. -/
def PollFields.values (f : PollFields) (i : PollIndex) (h : Handle) (cls : TxnClass) (policy : Policy) : PollValues :=
  { index := i, handle := h, cls := cls, policy := policy, period := f.period, writeBytes := f.writeBytes
    readLength := f.readLength, mask := f.mask }

/-- A POLL_SET that means something has its values in range (R113, check 1). -/
theorem pollValues_of_means {f : PollFields} {i : PollIndex} {h : Handle} {cls : TxnClass} {policy : Policy}
    (hm : f.means i h cls policy) : pollValues f = some (f.values i h cls policy) := by
  obtain ⟨hi, hh, hc, hp, hr⟩ := (f.means_iff i h cls policy).mp hm
  simp only [pollValues, hi, hh, hc, hp, if_pos hr, PollFields.values]

/-- Fields that mean nothing have a value out of range (R113, check 1). -/
theorem pollValues_of_not_means {f : PollFields} (hn : ∀ i h cls policy, ¬ f.means i h cls policy) :
    pollValues f = none := by
  simp only [PollFields.means_iff] at hn
  unfold pollValues
  split
  next i h cls policy hi hh hc hp => exact if_neg fun hr => hn i h cls policy ⟨hi, hh, hc, hp, hr⟩
  all_goals rfl

end Sys2Proof.Machine
end

section
/-! SUPPORT. The checks of POLL_SET in the order of R113, one lemma for each refusal, and the poll started with the record
it takes from the pool (R111, R114). -/

namespace Sys2Proof.Machine

theorem answerPollSet_badValue {f : PollFields} (hf : f.shaped) (hn : ∀ i h cls policy, ¬ f.means i h cls policy)
    (s : State) : answerPollSet f.body s = (s, Answer.refuse .badValue) := by
  simp only [answerPollSet, pollFields_body hf, pollValues_of_not_means hn]

/-- A POLL_SET with every field in its range goes on to checks 2 to 4. -/
theorem answerPollSet_of_means {f : PollFields} (hf : f.shaped) {i : PollIndex} {h : Handle} {cls : TxnClass}
    {policy : Policy} (hm : f.means i h cls policy) (s : State) :
    answerPollSet f.body s = setPollEntry (f.values i h cls policy) s := by
  simp only [answerPollSet, pollFields_body hf, pollValues_of_means hm]

section
variable {s : State} {v : PollValues} {e : Entry}

theorem setPollEntry_inUse (hon : s.poll v.index ≠ none) : setPollEntry v s = (s, Answer.refuse .inUse) :=
  if_pos (Option.isSome_iff_ne_none.mpr hon)

theorem setPollEntry_unknownHandle (hoff : s.poll v.index = none) (he : s.entry v.handle = none) :
    setPollEntry v s = (s, Answer.refuse .unknownHandle) := by
  simp [setPollEntry, hoff, he]

theorem setPollEntry_poolEmpty (hoff : s.poll v.index = none) (he : s.entry v.handle = some e)
    (hfree : s.freeRecords = 0) : setPollEntry v s = (s, Answer.refuse .poolEmpty) := by
  simp [setPollEntry, hoff, he, hfree]

theorem setPollEntry_ok (hoff : s.poll v.index = none) (he : s.entry v.handle = some e) (hfree : s.freeRecords ≠ 0) :
    setPollEntry v s = (s.setPoll v.index (some (newPoll v e)), Answer.ok [(newPoll v e).state.value]) := by
  simp [setPollEntry, hoff, he, hfree]

end

theorem newPoll_state_of_quarantined (v : PollValues) {e : Entry} (hq : e.state = .quarantined) :
    (newPoll v e).state = .paused := if_pos hq

theorem newPoll_state_of_ne (v : PollValues) {e : Entry} (hq : e.state ≠ .quarantined) :
    (newPoll v e).state = .active v.period := if_neg hq

/-- A count over a list without repetitions grows by one when one member of it comes to count and the others stay. -/
theorem countP_eq_succ_of_ne {α : Type} [DecidableEq α] {l : List α} (hl : l.Nodup) {a : α} (ha : a ∈ l)
    {p q : α → Bool} (hp : p a = false) (hq : q a = true) (hne : ∀ b, b ≠ a → q b = p b) :
    l.countP q = l.countP p + 1 := by
  have hrest : (l.erase a).countP q = (l.erase a).countP p :=
    List.countP_congr fun b hb => by rw [hne b (hl.mem_erase_iff.mp hb).1]
  have hperm := List.perm_cons_erase ha
  rw [hperm.countP_eq q, hperm.countP_eq p, List.countP_cons_of_pos hq, List.countP_cons_of_neg (by simp [hp]), hrest]

/-- A poll turned on takes one record more from the pool (R111). -/
theorem State.recordsTaken_setPoll_some {s : State} {i : PollIndex} (hoff : s.poll i = none) (p : Poll) :
    (s.setPoll i (some p)).recordsTaken = s.recordsTaken + 1 := by
  have hon : (s.setPoll i (some p)).pollsOn = s.pollsOn + 1 :=
    countP_eq_succ_of_ne (List.nodup_finRange 16) (List.mem_finRange i) (by simp [hoff]) (by simp)
      fun j hj => by rw [State.poll_setPoll_ne s _ hj.symm]
  have hrecords : (s.setPoll i (some p)).records = s.records := rfl
  simp only [State.recordsTaken, hon, hrecords, State.setPoll_waitList, Nat.add_assoc]

/-- A ready POLL_SET replies with its owner's answer. -/
theorem replies_pollSet {s u : State} {tag : Byte} {f : PollFields} {code : ReplyCode} {fields : List Byte}
    (hf : f.shaped) (hs : s.ready { kind := 0x40#8, tag := tag, body := f.body })
    (ho : answerPollSet f.body s.taking = (u, { code := code, fields := fields, mark := .plain }))
    (hc : code = .ok ∨ fields = []) : Replies (.pollSet tag f.body) s u 0x40#8 tag code fields .plain :=
  replies_of_owner (owner := answerPollSet f.body) rfl hs (PollFields.body_length_le hf) ho hc

/-- Settles O37: the checks of R113 in their order, each refusal by the lemma of its check, then the poll of R114. -/
theorem pollSetStartsThePoll : Obligations.PollSetStartsThePoll := by
  intro s tag f hs hf refused
  have refuse {code : ReplyCode} (ho : answerPollSet f.body s.taking = (s.taking, Answer.refuse code)) :
      refused code := replies_pollSet hf hs ho (.inr rfl)
  refine ⟨fun hn => refuse (answerPollSet_badValue hf hn s.taking), fun i h cls policy hm => ?_⟩
  have answer := answerPollSet_of_means hf hm s.taking
  refine ⟨fun hon => refuse (answer.trans (setPollEntry_inUse hon)), fun hoff => ?_⟩
  refine ⟨fun he => refuse (answer.trans (setPollEntry_unknownHandle hoff he)), fun e he => ?_⟩
  have hfree : s.taking.freeRecords = 0 ↔ 48 ≤ s.recordsTaken := State.freeRecords_eq_zero_iff s.taking
  refine ⟨fun htaken => refuse (answer.trans (setPollEntry_poolEmpty hoff he (hfree.mpr htaken))), fun htaken => ?_⟩
  have started := answer.trans (setPollEntry_ok hoff he (mt hfree.mp (by omega)))
  refine ⟨(newPoll (f.values i h cls policy) e).state, _, fun hq => ?_, fun hq => ?_,
    replies_pollSet hf hs started (.inl rfl), State.recordsTaken_setPoll_some (s := s.taking) hoff _⟩
  · rw [newPoll_state_of_quarantined _ hq]
    exact ⟨rfl, rfl⟩
  · rw [newPoll_state_of_ne _ hq]
    exact ⟨rfl, rfl⟩

end Sys2Proof.Machine
end

section
/-! SUPPORT. The settings of a bus as a target: the values of a LISTEN_SET (R130, Table 10-4), its checks in the order
of R130, one lemma for each refusal, and the page of a PAGE_SET (R131). -/

namespace Sys2Proof.Machine

/-! ### The values -/

theorem busOf?_eq_none {n : Byte} (hn : 4 ≤ n.toNat) : busOf? n = none :=
  dif_neg (Nat.not_lt.mpr hn)

/-- A switch byte is 00h for off and 01h for on. -/
theorem switchOf?_eq_some_iff (n : Byte) (on : Bool) :
    switchOf? n = some on ↔ n.toNat < 2 ∧ decide (n = 0x01#8) = on := by
  unfold switchOf?
  split
  next h0 => simp [h0]
  next h0 =>
    split
    next h1 => simp [h1]
    next h1 =>
      simp only [reduceCtorEq, false_iff]
      bv_omega

/-- An own address byte is 00h for none and 08h to 77h for that address (Table 10-4). -/
theorem ownAddressOf?_eq_some_iff (n : Byte) (address : Option BusAddress) :
    ownAddressOf? n = some address ↔
      (n = 0x00#8 ∧ address = none) ∨
        (8 ≤ n.toNat ∧ n.toNat ≤ 119 ∧ ∃ a : BusAddress, address = some a ∧ a.toNat = n.toNat) := by
  unfold ownAddressOf?
  split
  next h0 => simp [h0, eq_comm]
  next h0 =>
    simp only [Option.map_eq_some_iff, addressOf?_eq_some_iff, h0, false_and, false_or]
    constructor
    · rintro ⟨a, ⟨ha, hlo, hhi⟩, rfl⟩
      exact ⟨ha ▸ hlo, ha ▸ hhi, a, rfl, ha.symm⟩
    · rintro ⟨hlo, hhi, a, rfl, ha⟩
      exact ⟨a, ⟨ha.symm, ha ▸ hlo, ha ▸ hhi⟩, rfl⟩

/-- A LISTEN_SET has the settings that the readers of its three bytes find. -/
theorem listenSettings_eq_some_iff (bus own broadcast : Byte) (v : ListenSettings) :
    listenSettings bus own broadcast = some v ↔
      busOf? bus = some v.bus ∧ ownAddressOf? own = some v.ownAddress ∧
      switchOf? broadcast = some v.broadcastAccept := by
  obtain ⟨b, address, accept⟩ := v
  unfold listenSettings
  split
  next hb ha hs => simp [hb, ha, hs]
  all_goals simp [*]

/-- A LISTEN_SET with a byte out of its range has no settings (R130, check 1). -/
theorem listenSettings_eq_none {bus own broadcast : Byte}
    (h : 4 ≤ bus.toNat ∨ (1 ≤ own.toNat ∧ own.toNat < 8) ∨ 119 < own.toNat ∨ 2 ≤ broadcast.toNat) :
    listenSettings bus own broadcast = none := by
  refine Option.eq_none_iff_forall_ne_some.mpr fun v hv => ?_
  obtain ⟨hbus, hown, haccept⟩ := (listenSettings_eq_some_iff _ _ _ v).mp hv
  have hb : bus.toNat < 4 := (busOf?_eq_some_iff _ _).mp hbus ▸ v.bus.isLt
  obtain ⟨hs, -⟩ := (switchOf?_eq_some_iff _ _).mp haccept
  rcases (ownAddressOf?_eq_some_iff _ _).mp hown with ⟨rfl, -⟩ | ⟨hlo, hhi, -⟩
  · simp only [BitVec.toNat_ofNat] at h
    omega
  · omega

/-! ### The checks -/

theorem State.entryAt_iff (s : State) (b : BusId) (address : Option BusAddress) :
    s.entryAt b address = true ↔ ∃ h e, s.entry h = some e ∧ e.bus = b ∧ some e.address = address := by
  simp only [State.entryAt, allHandles, List.any_eq_true, List.mem_finRange, true_and]
  refine exists_congr fun h => ?_
  cases s.entry h <;> simp

theorem Engine.isAnswering_iff (g : Engine) : g.isAnswering = true ↔ ∃ r, g = .answering r := by
  cases g <;> simp [Engine.isAnswering]

section
variable {s : State} {v : ListenSettings}

theorem setListen_conflict (hentry : s.entryAt v.bus v.ownAddress = true) :
    setListen v s = (s, Answer.refuse .conflict) :=
  if_pos hentry

theorem setListen_busy (hentry : s.entryAt v.bus v.ownAddress = false)
    (hopen : (s.bus v.bus).engine.isAnswering = true) : setListen v s = (s, Answer.refuse .busy) := by
  simp [setListen, hentry, hopen]

theorem setListen_ok (hentry : s.entryAt v.bus v.ownAddress = false)
    (hopen : (s.bus v.bus).engine.isAnswering = false) :
    setListen v s =
      (s.setBus v.bus { s.bus v.bus with ownAddress := v.ownAddress, broadcastAccept := v.broadcastAccept },
        Answer.ok []) := by
  simp [setListen, hentry, hopen]

end

theorem answerListenSet_badValue {bus own broadcast : Byte} (hv : listenSettings bus own broadcast = none) (s : State) :
    answerListenSet [bus, own, broadcast] s = (s, Answer.refuse .badValue) := by
  simp only [answerListenSet, hv]

/-- A LISTEN_SET with every byte in its range goes on to checks 2 and 3. -/
theorem answerListenSet_of_settings {bus own broadcast : Byte} {v : ListenSettings}
    (hv : listenSettings bus own broadcast = some v) (s : State) :
    answerListenSet [bus, own, broadcast] s = setListen v s := by
  simp only [answerListenSet, hv]

theorem answerPageSet_badValue {bus : Byte} {page : List Byte} (hpage : page.length ≤ 16) (hbus : busOf? bus = none)
    (s : State) : answerPageSet (bus :: page) s = (s, Answer.refuse .badValue) := by
  simp only [answerPageSet, hpage, hbus, if_true]

theorem answerPageSet_ok {bus : Byte} {page : List Byte} {b : BusId} (hpage : page.length ≤ 16)
    (hbus : busOf? bus = some b) (s : State) :
    answerPageSet (bus :: page) s = (s.setBus b { s.bus b with page := page }, Answer.ok []) := by
  simp only [answerPageSet, hpage, hbus, if_true]

/-! ### The replies -/

section
variable {s u : State} {tag : Byte} {code : ReplyCode}

/-- A ready LISTEN_SET replies with its owner's answer. -/
theorem replies_listenSet {bus own broadcast : Byte}
    (hs : s.ready { kind := 0x50#8, tag := tag, body := [bus, own, broadcast] })
    (ho : answerListenSet [bus, own, broadcast] s.taking = (u, { code := code, fields := [], mark := .plain })) :
    Replies (.listenSet tag [bus, own, broadcast]) s u 0x50#8 tag code [] .plain :=
  replies_of_owner (owner := answerListenSet [bus, own, broadcast]) rfl hs (by simp) ho (.inr rfl)

/-- A ready PAGE_SET replies with its owner's answer. -/
theorem replies_pageSet {bus : Byte} {page : List Byte} (hpage : page.length ≤ 16)
    (hs : s.ready { kind := 0x51#8, tag := tag, body := bus :: page })
    (ho : answerPageSet (bus :: page) s.taking = (u, { code := code, fields := [], mark := .plain })) :
    Replies (.pageSet tag (bus :: page)) s u 0x51#8 tag code [] .plain :=
  replies_of_owner (owner := answerPageSet (bus :: page)) rfl hs
    (by rw [List.length_cons]; omega) ho (.inr rfl)

end

/-- Settles O39: for LISTEN_SET the checks of R130 in their order, each refusal by the lemma of its check, then the
settings; for PAGE_SET the check of its bus and the page (R131). -/
theorem listenAndPageSettingsAreTaken : Obligations.ListenAndPageSettingsAreTaken := by
  refine fun s tag bus => ⟨fun own broadcast hs => ⟨fun hout => ?_, fun b address hb hbroadcast haddress => ?_⟩,
    fun page hpage hs => ⟨fun hout => ?_, fun b hb => ?_⟩⟩
  · exact replies_listenSet hs (answerListenSet_badValue (listenSettings_eq_none hout) s.taking)
  · have answer := answerListenSet_of_settings ((listenSettings_eq_some_iff bus own broadcast
      { bus := b, ownAddress := address, broadcastAccept := decide (broadcast = 0x01#8) }).mpr
        ⟨(busOf?_eq_some_iff bus b).mpr hb, (ownAddressOf?_eq_some_iff own address).mpr haddress,
          (switchOf?_eq_some_iff broadcast _).mpr ⟨hbroadcast, rfl⟩⟩) s.taking
    refine ⟨fun htaken => replies_listenSet hs
      (answer.trans (setListen_conflict ((State.entryAt_iff s.taking b address).mpr htaken))), fun hfree => ?_⟩
    have hentry : s.taking.entryAt b address = false := by
      rw [Bool.eq_false_iff, ne_eq, State.entryAt_iff]
      exact fun ⟨h, e, he, hbus, ha⟩ => hfree h e he hbus ha
    refine ⟨fun hopen => replies_listenSet hs
      (answer.trans (setListen_busy hentry ((Engine.isAnswering_iff _).mpr hopen))), fun hclosed => ?_⟩
    have hidle : (s.taking.bus b).engine.isAnswering = false := by
      rw [Bool.eq_false_iff, ne_eq, Engine.isAnswering_iff]
      exact fun ⟨r, hr⟩ => hclosed r hr
    exact replies_listenSet hs (answer.trans (setListen_ok hentry hidle))
  · exact replies_pageSet hpage hs (answerPageSet_badValue hpage (busOf?_eq_none hout) s.taking)
  · exact replies_pageSet hpage hs (answerPageSet_ok hpage ((busOf?_eq_some_iff bus b).mpr hb) s.taking)

end Sys2Proof.Machine
end

section
/-! SUPPORT. What a step can be: a command over the queue's rest, or a millisecond that passes; what a command can be: an
action of the state, a request's handling or a reset. Then the statements that say so of every command. -/

namespace Sys2Proof.Machine

/-! ### Commands -/

theorem act_answers (s : State) (f : State → State) : ∃ t, act s f = .next t := by
  cases h : s.resetLow with
  | true => exact ⟨s, act_low h f⟩
  | false => exact ⟨_, act_high h f⟩

/-- An action of the state answers the state itself while RESET# is low, and else the settled state. -/
theorem act_next {s t : State} {f : State → State} (h : act s f = .next t) :
    (s.resetLow = true ∧ t = s) ∨ (s.resetLow = false ∧ t = (f s).settle) := by
  cases hl : s.resetLow with
  | true =>
    rw [act_low hl] at h
    cases h
    exact .inl ⟨rfl, rfl⟩
  | false =>
    rw [act_high hl] at h
    cases h
    exact .inr ⟨rfl, rfl⟩

theorem bodyFits_iff (b : List Byte) : bodyFits b = true ↔ b.length ≤ 240 :=
  decide_eq_true_iff

/-- What a command's well-formedness says of it. -/
theorem Instr.wellFormed_iff (c : Instr) :
    c.wellFormed = true ↔ (∀ b, c.body? = some b → b.length ≤ 240) ∧ c.kindFits = true ∧ c.nameFits = true := by
  unfold Instr.wellFormed
  cases c.body? with
  | none => simp
  | some b => simp only [Bool.and_eq_true, bodyFits_iff, Option.some.injEq, forall_eq', and_assoc]

/-- A well-formed command is an action of the state, or one of the resets. -/
theorem exec_wellFormed {c : Instr} (hw : c.wellFormed = true) (hn : ¬ Resets c) : ∃ f, ∀ s, exec c s = act s f := by
  obtain ⟨hbody, hkind, -⟩ := (Instr.wellFormed_iff c).mp hw
  cases hr : requestOf c with
  | none => exact exec_happening hr hn
  | some r =>
    obtain ⟨owner, ho⟩ := exec_request hr hkind
    have hb : r.body.length ≤ 240 := hbody r.body (by rw [body?_requestOf, hr]; rfl)
    exact ⟨_, fun s => (ho s).trans (request_act hb owner s)⟩

/-- A command whose body no frame carries stops. -/
theorem exec_long {c : Instr} {b : List Byte} (hb : c.body? = some b) (hl : 240 < b.length) (s : State) :
    exec c s = .fault .illFormed := by
  cases hk : c.kindFits with
  | false => exact exec_unfit hk s
  | true =>
    rw [body?_requestOf] at hb
    obtain ⟨r, hr, rfl⟩ := Option.map_eq_some_iff.mp hb
    obtain ⟨owner, ho⟩ := exec_request hr hk
    rw [ho, request_long hl]

/-- Settles O3: a well-formed command acts or resets, and both answer; an ill-formed one stops. -/
theorem wellFormedCommandsAnswer : Obligations.WellFormedCommandsAnswer := by
  refine fun c s => ⟨fun hw => ?_, ?_⟩
  · by_cases hn : Resets c
    · rcases hn with rfl | rfl | rfl <;> exact ⟨_, rfl⟩
    · obtain ⟨f, hf⟩ := exec_wellFormed hw hn
      rw [hf]
      exact act_answers s f
  · rintro (⟨b, hb, hl⟩ | hk)
    · exact exec_long hb hl s
    · exact exec_unfit hk s

/-! ### Steps -/

/-- Settles O1: that is how `step` is defined on a queue with a command at its front. -/
theorem stepTakesTheFrontCommand : Obligations.StepTakesTheFrontCommand :=
  fun _ _ _ => rfl

theorem step_of_ownCommand {s : State} (hp : s.pending = []) {c : Instr} (hc : s.ownCommand = some c) :
    step s = exec c s := by
  simp only [step, hp, hc]

theorem step_of_no_command {s : State} (hp : s.pending = []) (hc : s.ownCommand = none) : step s = tick s := by
  simp only [step, hp, hc]

theorem ownCommand_of_ready {s : State} {r : Request} {rest : List Request} (hr : s.handler = .ready)
    (hi : s.intake = r :: rest) : s.ownCommand = some (requestCommand r) := by
  simp only [State.ownCommand, hr, hi]

theorem ownCommand_eq_none {s : State} (h : s.handler = .halted ∨ s.intake = []) : s.ownCommand = none := by
  unfold State.ownCommand
  split
  next hr hi => simp [hr, hi] at h
  all_goals rfl

/-- Settles O2: the intake's head by the command of its request, and else the passing of a millisecond. -/
theorem emptyQueueTakesTheIntakeHeadOrTicks : Obligations.EmptyQueueTakesTheIntakeHeadOrTicks := by
  refine fun s hp => ⟨fun r rest hr hi hk => ?_, fun hn hl => ?_⟩
  · obtain ⟨hof, hfits⟩ := requestCommand_of r hk
    exact ⟨_, hof, hfits, step_of_ownCommand hp (ownCommand_of_ready hr hi)⟩
  · rw [step_of_no_command hp (ownCommand_eq_none hn), tick, act_high hl]
    exact ⟨_, rfl, settle_settled _⟩

/-- A step is a command, or the passing of a millisecond, on a state that differs at most in the commands that wait. -/
theorem step_cases {s t : State} (h : step s = .next t) :
    ∃ p, (∃ c, exec c { s with pending := p } = .next t) ∨ tick { s with pending := p } = .next t := by
  unfold step at h
  split at h
  next c rest hp => exact ⟨rest, .inl ⟨c, h⟩⟩
  next hp =>
    split at h
    next c hc => exact ⟨s.pending, .inl ⟨c, h⟩⟩
    next hc => exact ⟨s.pending, .inr h⟩

/-- A law that looks at no waiting command, and that every command and the passing of a millisecond keep, is kept by every
step. -/
theorem step_keeps {P : State → Prop} (hpending : ∀ s p, P s → P { s with pending := p })
    (hexec : ∀ c s t, P s → exec c s = .next t → P t)
    (htick : ∀ s, s.resetLow = false → P s → P (s.pass 1000).settle) {s t : State} (hs : P s)
    (h : step s = .next t) : P t := by
  obtain ⟨p, ⟨c, hc⟩ | hc⟩ := step_cases h
  · exact hexec c _ t (hpending s p hs) hc
  · rcases act_next hc with ⟨-, rfl⟩ | ⟨hl, rfl⟩
    · exact hpending s p hs
    · exact htick _ hl (hpending s p hs)

end Sys2Proof.Machine
end

section
/-! SUPPORT. What the end of a step leaves: nothing announced that is not raised, and nothing to send before an idle
transmitter (R155, R170, R171). -/

namespace Sys2Proof.Machine

theorem FlagSet.inter_subset_right (a b : FlagSet) : (a.inter b).subset b = true := by
  simp only [FlagSet.inter, FlagSet.subset, Bool.and_eq_true, Bool.or_eq_true, Bool.not_eq_true', Bool.and_eq_false_iff]
  grind

theorem FlagSet.inter_subset_left (a b : FlagSet) : (a.inter b).subset a = true := by
  simp only [FlagSet.inter, FlagSet.subset, Bool.and_eq_true, Bool.or_eq_true, Bool.not_eq_true', Bool.and_eq_false_iff]
  grind

theorem eligible_subset_raised (s : State) : (eligible s).subset (raised s) = true :=
  FlagSet.inter_subset_left _ _

/-- A settled state announces only what is raised, and its transmitter is idle only with nothing to send. -/
theorem Settled.owes_nothing {u t : State} (h : Settled u t) : t.AnnouncedRaised ∧ t.SendsWhatItOwes := by
  rcases h with ⟨ht, hidle⟩ | ⟨ht, -, -⟩ | ⟨r, rest, -, -, -, ht⟩
  · rw [ht]
    refine ⟨FlagSet.inter_subset_right _ _, fun _ hi => ?_⟩
    obtain ⟨hn, hf⟩ := hidle hi
    exact ⟨hf, (noticePending_stillAnnounced u).trans hn⟩
  · rw [ht]
    exact ⟨eligible_subset_raised u, fun _ hi => by cases hi⟩
  · rw [ht]
    exact ⟨FlagSet.inter_subset_right _ _, fun _ hi => by cases hi⟩

theorem settle_owes_nothing (u : State) : u.settle.AnnouncedRaised ∧ u.settle.SendsWhatItOwes :=
  (settle_settled u).owes_nothing

/-- After a full reset RESTARTED is raised and not announced. -/
theorem noticePending_fullReset (s : State) (rate : LinkRate) (sensed : Bool) :
    noticePending (s.fullReset rate sensed) = true := by
  simp [noticePending, eligible, raised, FlagSet.inter, FlagSet.subset, State.fullReset, State.resetValues, FlagSet.empty]

theorem chooseFrame_fullReset (s : State) (rate : LinkRate) (sensed : Bool) :
    (s.fullReset rate sensed).chooseFrame = (s.fullReset rate sensed).composeNotice := by
  rw [State.chooseFrame, if_pos (noticePending_fullReset s rate sensed)]

theorem powerUp_high {s : State} (h : s.resetLow = false) : s.powerUp = (s.fullReset .r115200 false).composeNotice := by
  have hl : (s.fullReset .r115200 false).resetLow = false := h
  simp [State.powerUp, hl, chooseFrame_fullReset]

theorem powerUp_low {s : State} (h : s.resetLow = true) : s.powerUp = s.fullReset .r115200 false := by
  have hl : (s.fullReset .r115200 false).resetLow = true := h
  simp [State.powerUp, hl]

theorem composeNotice_owes_nothing (u : State) : u.composeNotice.AnnouncedRaised ∧ u.composeNotice.SendsWhatItOwes :=
  ⟨eligible_subset_raised u, fun _ hi => by cases hi⟩

theorem powerUp_owes_nothing (s : State) : s.powerUp.AnnouncedRaised ∧ s.powerUp.SendsWhatItOwes := by
  cases h : s.resetLow with
  | false =>
    rw [powerUp_high h]
    exact composeNotice_owes_nothing _
  | true =>
    rw [powerUp_low h]
    have hl : (s.fullReset .r115200 false).resetLow = true := h
    exact ⟨rfl, fun hl' => by rw [hl] at hl'; cases hl'⟩

/-- With RESET# high every command but the pin's own ends with only raised flags announced and nothing to send before an
idle transmitter. -/
theorem exec_owes_nothing {c : Instr} {s t : State} (hl : s.resetLow = false) (ha : c ≠ .resetPinAssert)
    (hr : c ≠ .resetPinRelease) (h : exec c s = .next t) : t.AnnouncedRaised ∧ t.SendsWhatItOwes := by
  by_cases hp : c = .powerOn
  · subst hp
    cases h
    exact powerUp_owes_nothing s
  · obtain ⟨f, hf⟩ := exec_next (by simp [Resets, hp, ha, hr]) h
    rw [hf, act_high hl] at h
    cases h
    exact settle_owes_nothing (f s)

theorem exec_low {c : Instr} {s t : State} (hl : s.resetLow = true) (hn : ¬ Resets c) (h : exec c s = .next t) :
    t = s := by
  obtain ⟨f, hf⟩ := exec_next hn h
  rw [hf, act_low hl] at h
  cases h
  rfl

/-- The end of a step brings the laws about; with RESET# low the state stands, and the pin's fall keeps what is announced. -/
theorem exec_keeps_owes_nothing (c : Instr) (s t : State) (hs : s.AnnouncedRaised ∧ s.SendsWhatItOwes)
    (h : exec c s = .next t) : t.AnnouncedRaised ∧ t.SendsWhatItOwes := by
  by_cases ha : c = .resetPinAssert
  · subst ha
    cases h
    split
    · exact hs
    · refine ⟨?_, fun hl => by cases hl⟩
      obtain ⟨hraised, -⟩ := hs
      have hevents : raised s.assertReset = raised s := by
        simp [raised, eventBuses, State.assertReset, changedPolls, changedTargets, Bus.hasEvents]
      rw [State.AnnouncedRaised, hevents]
      exact hraised
  by_cases hr : c = .resetPinRelease
  · subst hr
    cases h
    split
    · exact powerUp_owes_nothing _
    · exact hs
  cases hl : s.resetLow with
  | false => exact exec_owes_nothing hl ha hr h
  | true =>
    by_cases hp : c = .powerOn
    · subst hp
      cases h
      exact powerUp_owes_nothing s
    · rw [exec_low hl (by simp [Resets, hp, ha, hr]) h]
      exact hs

/-- Settles O11: what settling leaves, and with RESET# low what stands. -/
theorem idleTransmitterOwesNothing : Obligations.IdleTransmitterOwesNothing :=
  ⟨fun _ _ hs h => step_keeps (P := fun s => s.AnnouncedRaised ∧ s.SendsWhatItOwes) (fun _ _ h => h)
      exec_keeps_owes_nothing (fun _ _ _ => settle_owes_nothing _) hs h,
    fun _ _ _ hl ha hr h => exec_owes_nothing hl ha hr h⟩

end Sys2Proof.Machine
end

section
/-! SUPPORT. The two sides of the state. The link side is what the host link, the request handler and the attention unit keep
between frames; the device side is what the pool, the buses, the directory, the polls and the result store keep. The
operations of one side leave the other as it is. -/

namespace Sys2Proof.Machine

/-- The link side of a state: the intake, the slots, the cache, the transmitter, the handler, the flags and the rates, with
the waiting commands, the free values taken and the RESET# pin. -/
def State.link (s : State) : State :=
  { State.resetValues with
    pending := s.pending, freeIndex := s.freeIndex, resetLow := s.resetLow, rate := s.rate, pendingRate := s.pendingRate
    intake := s.intake, filled := s.filled, cache := s.cache, transmitter := s.transmitter, handler := s.handler
    restarted := s.restarted, mask := s.mask, announced := s.announced }

/-- The device side of a state: the time base, the RESET# pin, the tickets, the buses, the results, the directory, the polls
and the inbound queue. -/
def State.device (s : State) : State :=
  { State.resetValues with
    time := s.time, resetLow := s.resetLow, nextTicket := s.nextTicket, buses := s.buses, store := s.store
    waitList := s.waitList, directory := s.directory, polls := s.polls, inbound := s.inbound }

/-! ### Operations of the device leave the link -/

@[simp] theorem link_setBus (s : State) (b : BusId) (x : Bus) : (s.setBus b x).link = s.link := rfl
@[simp] theorem link_setEntry (s : State) (h : Handle) (e : Option Entry) : (s.setEntry h e).link = s.link := rfl
@[simp] theorem link_setPoll (s : State) (i : PollIndex) (p : Option Poll) : (s.setPoll i p).link = s.link := rfl
@[simp] theorem link_mapPolls (s : State) (f : Poll → Poll) : (s.mapPolls f).link = s.link := rfl
@[simp] theorem link_pass (s : State) (us : Nat) : (s.pass us).link = s.link := rfl
@[simp] theorem link_passTo (s : State) (t : Nat) : (s.passTo t).link = s.link := rfl
@[simp] theorem link_rest (s : State) (b : BusId) (e : Engine) : (s.rest b e).link = s.link := rfl
@[simp] theorem link_mapMonitor (s : State) (b : BusId) (f : Monitor → Monitor) : (s.mapMonitor b f).link = s.link := rfl
@[simp] theorem link_enterClearing (s : State) (b : BusId) (t : Option Txn) : (s.enterClearing b t).link = s.link := rfl
@[simp] theorem link_endReception (s : State) (b : BusId) (r : Reception) (e : EndedBy) :
    (s.endReception b r e).link = s.link := rfl
@[simp] theorem link_drive (s : State) (b : BusId) (p : DrivePhase) (w : Work) : (s.drive b p w).link = s.link := rfl
@[simp] theorem link_answer (s : State) (b : BusId) (r : Reception) (d : Drive) : (s.answer b r d).link = s.link := rfl
@[simp] theorem link_stretchOut (s : State) (b : BusId) : (s.stretchOut b).link = s.link := rfl
@[simp] theorem link_release (s : State) (h : Handle) (e : Entry) : (s.release h e).link = s.link := rfl
@[simp] theorem link_pollOutcome (s : State) (i : PollIndex) (o : TxnOutcome) (bytes : List Byte) :
    (s.pollOutcome i o bytes).link = s.link := rfl

@[simp] theorem link_deliver (s : State) (t : Txn) (o : TxnOutcome) : (s.deliver t o).link = s.link := by
  obtain ⟨st, wl, h⟩ := deliver_frame s t o
  rw [h]; rfl

@[simp] theorem link_decideAside (s : State) (o : TxnOutcome) (t : Txn) : (s.decideAside o t).link = s.link :=
  link_deliver s _ o

@[simp] theorem link_foldl_decideAside (o : TxnOutcome) (ts : List Txn) (s : State) :
    (ts.foldl (fun u t => u.decideAside o t) s).link = s.link := by
  obtain ⟨st, wl, h⟩ := decideAside_foldl_frame o ts s
  rw [h]; rfl

@[simp] theorem link_conclude (s : State) (t : Txn) (o : TxnOutcome) : (s.conclude t o).link = s.link := by
  obtain ⟨st, wl, ps, h⟩ := conclude_frame s t o
  rw [h]; rfl

@[simp] theorem link_giveBack (s : State) (t : Txn) (place : Placement) : (s.giveBack t place).link = s.link := by
  obtain ⟨st, wl, bs, h⟩ := giveBack_frame s t place
  rw [h]; rfl

@[simp] theorem link_giveUpProbe (s : State) (b : BusId) (h : Handle) : (s.giveUpProbe b h).link = s.link := by
  obtain ⟨dir, hd⟩ := giveUpProbe_frame s b h
  rw [hd]; rfl

@[simp] theorem link_giveUpWork (s : State) (b : BusId) (w : Work) : (s.giveUpWork b w).link = s.link := by
  cases w <;> simp [State.giveUpWork]

@[simp] theorem link_select (s : State) (b : BusId) : (s.select b).link = s.link := by
  obtain ⟨bs, dir, h⟩ := select_frame s b
  rw [h]; rfl

@[simp] theorem link_enterIdle (s : State) (b : BusId) : (s.enterIdle b).link = s.link := by
  simp [State.enterIdle]

@[simp] theorem link_loseBus (s : State) (b : BusId) (w : Work) (hearing : Option (List Bool)) :
    (s.loseBus b w hearing).link = s.link := by
  obtain ⟨st, wl, bs, dir, ps, h⟩ := loseBus_frame s b w hearing
  rw [h]; rfl

@[simp] theorem link_reportStop (s : State) (b : BusId) (r : StopResult) (w : Work) :
    (s.reportStop b r w).link = s.link := by
  obtain ⟨st, wl, bs, ps, h⟩ := reportStop_frame s b r w
  rw [h]; rfl

@[simp] theorem link_addressAcknowledged (s : State) (h : Handle) : (s.addressAcknowledged h).link = s.link := by
  obtain ⟨dir, hd⟩ := addressAcknowledged_frame s h
  rw [hd]; rfl

@[simp] theorem link_addressRefused (s : State) (h : Handle) : (s.addressRefused h).link = s.link := by
  obtain ⟨st, wl, bs, dir, ps, hd⟩ := addressRefused_frame s h
  rw [hd]; rfl

@[simp] theorem link_probeResult (s : State) (b : BusId) (h : Handle) (ack : AckBit) :
    (s.probeResult b h ack).link = s.link := by
  obtain ⟨dir, ps, hd⟩ := probeResult_frame s b h ack
  rw [hd]; rfl

@[simp] theorem link_concludeStalled (s : State) (t : Option Txn) (o : TxnOutcome) :
    (s.concludeStalled t o).link = s.link := by
  cases t <;> simp [State.concludeStalled]

@[simp] theorem link_abandon (s : State) (b : BusId) (e : Engine) : (s.abandon b e).link = s.link := by
  unfold State.abandon
  split <;> simp

@[simp] theorem link_stalled (s : State) (b : BusId) (p : DrivePhase) (w : Work) : (s.stalled b p w).link = s.link := by
  unfold State.stalled
  split <;> simp

/-! ### Operations of the link leave the device -/

@[simp] theorem device_takeFrame (s : State) (r : Request) : (s.takeFrame r).device = s.device := by
  obtain ⟨i, f, c, d, h⟩ := takeFrame_frame s r
  rw [h]; rfl

@[simp] theorem device_byteEffect (s : State) (x : ByteEffect) : (s.byteEffect x).device = s.device := by
  obtain ⟨i, f, c, d, h⟩ := byteEffect_frame s x
  rw [h]; rfl

@[simp] theorem device_present (s : State) (r : Request) : (s.present r).device = s.device := by
  unfold State.present
  split <;> simp

@[simp] theorem device_placeReply (s : State) (kind tag : Byte) (a : Answer) :
    (s.placeReply kind tag a).device = s.device := rfl

@[simp] theorem device_composeNotice (s : State) : s.composeNotice.device = s.device := rfl

@[simp] theorem device_startReply (s : State) : s.startReply.device = s.device := by
  unfold State.startReply
  split <;> rfl

@[simp] theorem device_chooseFrame (s : State) : s.chooseFrame.device = s.device := by
  unfold State.chooseFrame
  split <;> simp

theorem Settled.device {u t : State} (h : Settled u t) : t.device = u.device := by
  rcases h with ⟨ht, -⟩ | ⟨ht, -, -⟩ | ⟨r, rest, -, -, -, ht⟩ <;> rw [ht] <;> rfl

@[simp] theorem device_settle (s : State) : s.settle.device = s.device := (settle_settled s).device

end Sys2Proof.Machine
end

section
/-! SUPPORT. The commands by what acts: the owners of the requests and the happenings of the device, each listed once, so that a
law of every command is proved over these lists. -/

namespace Sys2Proof.Machine

/-! ### The happenings -/

/-- A byte is received (R147). -/
def State.takeByte (v : Byte) (s : State) : State :=
  ({ s with receiver := (s.receiver.take v).1 } : State).byteEffect (s.receiver.take v).2

/-- The gap timer runs out (R148). -/
def State.gapOut (s : State) : State :=
  if s.receiver.state = .hunt then s
  else { s.pass ((Config.gapLimit + 1 - s.receiver.gapTimer) * 1000) with
    receiver := Receiver.reset, discards := { s.discards with gap := satSucc 65535 s.discards.gap } }

/-- A stop is told to a bus (R36). -/
def State.stopTold (s : State) (b : BusId) : State :=
  match (s.bus b).monitor.line with
  | .free => s
  | .held => s.seeStop b

/-- Bus-free is told to a bus (R37). -/
def State.freeTold (s : State) (b : BusId) : State :=
  if (s.bus b).monitor.freeRaised || (s.bus b).engine.drives then s
  else (s.pass ((s.bus b).monitor.freeTime - (s.bus b).monitor.freeTimer)).raiseBusFree b

/-- Stuck is told to a bus (R38). -/
def State.stuckTold (s : State) (b : BusId) : State :=
  if (s.bus b).engine.stuckReaches then
    (s.pass (((s.bus b).monitor.stuckLimit - (s.bus b).monitor.stuckTimer) * 1000)).raiseStuck b
  else s

/-- The happenings of the device. -/
inductive DeviceHappening : (State → State) → Prop
  | gapTimerExpiry : DeviceHappening State.gapOut
  | deadlineExpiry (k : Nat) : DeviceHappening fun s => s.expireTicket k
  | retryGapEnd (n : RecordName) : DeviceHappening fun s => s.endGap n
  | pollPeriodExpiry (i : PollIndex) : DeviceHappening fun s => s.periodOut i
  | probeTimerExpiry (h : Handle) : DeviceHappening fun s => s.probeTimerOut h
  | startSeen (b : BusId) (change : SensedChange) : DeviceHappening fun s => s.sense b change
  | stopSeen (b : BusId) : DeviceHappening fun s => s.stopTold b
  | busFree (b : BusId) : DeviceHappening fun s => s.freeTold b
  | stuck (b : BusId) : DeviceHappening fun s => s.stuckTold b
  | startMade (b : BusId) : DeviceHappening fun s => s.makeStart b
  | addressByteAnswered (b : BusId) (ack : AckBit) : DeviceHappening fun s => s.addressAnswered b ack
  | writeByteAnswered (b : BusId) (ack : AckBit) : DeviceHappening fun s => s.writeAnswered b ack
  | readByteTaken (b : BusId) (part : ReadPart) : DeviceHappening fun s => s.readTaken b part
  | repeatedStartMade (b : BusId) : DeviceHappening fun s => s.makeRepeatedStart b
  | stopReleased (b : BusId) (rose : Bool) : DeviceHappening fun s => s.releaseStop b rose
  | arbitrationLost (b : BusId) (cause : LossCause) : DeviceHappening fun s => s.arbitrationLoss b cause
  | probeAnswered (b : BusId) (ack : AckBit) : DeviceHappening fun s => s.probeAnswered b ack
  | stall (b : BusId) : DeviceHappening fun s => s.stallBus b
  | cleared (b : BusId) : DeviceHappening fun s => s.endClearing b
  | clearingFailed (b : BusId) : DeviceHappening fun s => s.failClearing b
  | addressByteHeard (b : BusId) (v : Byte) : DeviceHappening fun s => s.addressHeard b v
  | writeInByte (b : BusId) (v : Byte) : DeviceHappening fun s => s.writeIn b v
  | readOutByte (b : BusId) (ack : AckBit) : DeviceHappening fun s => s.readOut b ack

/-- A happening is a byte received, the end of a frame, or one of the device's. -/
theorem exec_happening_cases {c : Instr} (hr : requestOf c = none) (hn : ¬ Resets c) :
    (∃ v, ∀ s, exec c s = act s (State.takeByte v)) ∨ c = .frameSent ∨
      ∃ f, DeviceHappening f ∧ ∀ s, exec c s = act s f := by
  cases c with
  | byteReceived v => exact .inl ⟨v, fun _ => rfl⟩
  | frameSent => exact .inr (.inl rfl)
  | powerOn => simp [Resets] at hn
  | resetPinAssert => simp [Resets] at hn
  | resetPinRelease => simp [Resets] at hn
  | gapTimerExpiry => exact .inr (.inr ⟨_, .gapTimerExpiry, fun _ => rfl⟩)
  | deadlineExpiry k => exact .inr (.inr ⟨_, .deadlineExpiry k, fun _ => rfl⟩)
  | retryGapEnd n => exact .inr (.inr ⟨_, .retryGapEnd n, fun _ => rfl⟩)
  | pollPeriodExpiry i => exact .inr (.inr ⟨_, .pollPeriodExpiry i, fun _ => rfl⟩)
  | probeTimerExpiry h => exact .inr (.inr ⟨_, .probeTimerExpiry h, fun _ => rfl⟩)
  | startSeen b change => exact .inr (.inr ⟨_, .startSeen b change, fun _ => rfl⟩)
  | stopSeen b => exact .inr (.inr ⟨_, .stopSeen b, fun _ => rfl⟩)
  | busFree b => exact .inr (.inr ⟨_, .busFree b, fun _ => rfl⟩)
  | stuck b => exact .inr (.inr ⟨_, .stuck b, fun _ => rfl⟩)
  | startMade b => exact .inr (.inr ⟨_, .startMade b, fun _ => rfl⟩)
  | addressByteAnswered b ack => exact .inr (.inr ⟨_, .addressByteAnswered b ack, fun _ => rfl⟩)
  | writeByteAnswered b ack => exact .inr (.inr ⟨_, .writeByteAnswered b ack, fun _ => rfl⟩)
  | readByteTaken b part => exact .inr (.inr ⟨_, .readByteTaken b part, fun _ => rfl⟩)
  | repeatedStartMade b => exact .inr (.inr ⟨_, .repeatedStartMade b, fun _ => rfl⟩)
  | stopReleased b rose => exact .inr (.inr ⟨_, .stopReleased b rose, fun _ => rfl⟩)
  | arbitrationLost b cause => exact .inr (.inr ⟨_, .arbitrationLost b cause, fun _ => rfl⟩)
  | probeAnswered b ack => exact .inr (.inr ⟨_, .probeAnswered b ack, fun _ => rfl⟩)
  | stall b => exact .inr (.inr ⟨_, .stall b, fun _ => rfl⟩)
  | cleared b => exact .inr (.inr ⟨_, .cleared b, fun _ => rfl⟩)
  | clearingFailed b => exact .inr (.inr ⟨_, .clearingFailed b, fun _ => rfl⟩)
  | addressByteHeard b v => exact .inr (.inr ⟨_, .addressByteHeard b v, fun _ => rfl⟩)
  | writeInByte b v => exact .inr (.inr ⟨_, .writeInByte b v, fun _ => rfl⟩)
  | readOutByte b ack => exact .inr (.inr ⟨_, .readOutByte b ack, fun _ => rfl⟩)
  | _ => simp [requestOf] at hr

/-! ### The owners of the requests -/

/-- The owners of the requests. -/
inductive Owner : (State → State × Answer) → Prop
  | hello (body : List Byte) : Owner (answerHello body)
  | hubReset (body : List Byte) : Owner (answerHubReset body)
  | attentionMask (body : List Byte) : Owner (answerAttentionMask body)
  | linkConfig (body : List Byte) : Owner (answerLinkConfig body)
  | linkStatus (body : List Byte) : Owner (answerLinkStatus body)
  | submit (body : List Byte) : Owner (answerSubmit body)
  | cancel (body : List Byte) : Owner (answerCancel body)
  | query (body : List Byte) : Owner (answerQuery body)
  | flush (body : List Byte) : Owner (answerFlush body)
  | fetch (body : List Byte) : Owner (answerFetch body)
  | busConfig (body : List Byte) : Owner (answerBusConfig body)
  | busStatus (body : List Byte) : Owner (answerBusStatus body)
  | busReset (body : List Byte) : Owner (answerBusReset body)
  | targetAdd (body : List Byte) : Owner (answerTargetAdd body)
  | targetRemove (body : List Byte) : Owner (answerTargetRemove body)
  | targetRelease (body : List Byte) : Owner (answerTargetRelease body)
  | targetQuery (body : List Byte) : Owner (answerTargetQuery body)
  | targetChanges (body : List Byte) : Owner (answerTargetChanges body)
  | pollSet (body : List Byte) : Owner (answerPollSet body)
  | pollOff (body : List Byte) : Owner (answerPollOff body)
  | pollRead (body : List Byte) : Owner (answerPollRead body)
  | listenSet (body : List Byte) : Owner (answerListenSet body)
  | pageSet (body : List Byte) : Owner (answerPageSet body)
  | inboundRead (body : List Byte) : Owner (answerInboundRead body)
  | unknownKind : Owner answerUnknownKind

/-- A request command whose kind fits is the answer of one of the owners to its request. -/
theorem exec_owner {c : Instr} {r : Request} (hr : requestOf c = some r) (hk : c.kindFits = true) :
    ∃ owner, Owner owner ∧ ∀ s, exec c s = request r.kind r.tag r.body owner s := by
  cases c with
  | hello t b => obtain rfl := Option.some.inj hr; exact ⟨_, .hello b, fun _ => rfl⟩
  | hubReset t b => obtain rfl := Option.some.inj hr; exact ⟨_, .hubReset b, fun _ => rfl⟩
  | attentionMask t b => obtain rfl := Option.some.inj hr; exact ⟨_, .attentionMask b, fun _ => rfl⟩
  | linkConfig t b => obtain rfl := Option.some.inj hr; exact ⟨_, .linkConfig b, fun _ => rfl⟩
  | linkStatus t b => obtain rfl := Option.some.inj hr; exact ⟨_, .linkStatus b, fun _ => rfl⟩
  | submit t b => obtain rfl := Option.some.inj hr; exact ⟨_, .submit b, fun _ => rfl⟩
  | cancel t b => obtain rfl := Option.some.inj hr; exact ⟨_, .cancel b, fun _ => rfl⟩
  | query t b => obtain rfl := Option.some.inj hr; exact ⟨_, .query b, fun _ => rfl⟩
  | flush t b => obtain rfl := Option.some.inj hr; exact ⟨_, .flush b, fun _ => rfl⟩
  | fetch t b => obtain rfl := Option.some.inj hr; exact ⟨_, .fetch b, fun _ => rfl⟩
  | busConfig t b => obtain rfl := Option.some.inj hr; exact ⟨_, .busConfig b, fun _ => rfl⟩
  | busStatus t b => obtain rfl := Option.some.inj hr; exact ⟨_, .busStatus b, fun _ => rfl⟩
  | busReset t b => obtain rfl := Option.some.inj hr; exact ⟨_, .busReset b, fun _ => rfl⟩
  | targetAdd t b => obtain rfl := Option.some.inj hr; exact ⟨_, .targetAdd b, fun _ => rfl⟩
  | targetRemove t b => obtain rfl := Option.some.inj hr; exact ⟨_, .targetRemove b, fun _ => rfl⟩
  | targetRelease t b => obtain rfl := Option.some.inj hr; exact ⟨_, .targetRelease b, fun _ => rfl⟩
  | targetQuery t b => obtain rfl := Option.some.inj hr; exact ⟨_, .targetQuery b, fun _ => rfl⟩
  | targetChanges t b => obtain rfl := Option.some.inj hr; exact ⟨_, .targetChanges b, fun _ => rfl⟩
  | pollSet t b => obtain rfl := Option.some.inj hr; exact ⟨_, .pollSet b, fun _ => rfl⟩
  | pollOff t b => obtain rfl := Option.some.inj hr; exact ⟨_, .pollOff b, fun _ => rfl⟩
  | pollRead t b => obtain rfl := Option.some.inj hr; exact ⟨_, .pollRead b, fun _ => rfl⟩
  | listenSet t b => obtain rfl := Option.some.inj hr; exact ⟨_, .listenSet b, fun _ => rfl⟩
  | pageSet t b => obtain rfl := Option.some.inj hr; exact ⟨_, .pageSet b, fun _ => rfl⟩
  | inboundRead t b => obtain rfl := Option.some.inj hr; exact ⟨_, .inboundRead b, fun _ => rfl⟩
  | unknownKind k t b =>
    obtain rfl := Option.some.inj hr
    have hk' : (k.toNat < 128 && !kindListed k) = true := by simpa [Instr.kindFits, kindUnknown] using hk
    exact ⟨_, .unknownKind, fun s => by simp [exec, execUnknownKind, hk']⟩
  | _ => simp [requestOf] at hr

/-- A request command that answers a next state presents its request and hands it to its owner. -/
theorem exec_request_next {c : Instr} {r : Request} (hr : requestOf c = some r) {s t : State} (h : exec c s = .next t) :
    ∃ owner, Owner owner ∧ exec c s = act s fun s => (s.present r).handle r owner := by
  cases hk : c.kindFits with
  | false => simp [exec_unfit hk] at h
  | true =>
    obtain ⟨owner, hown, ho⟩ := exec_owner hr hk
    by_cases hb : r.body.length ≤ 240
    · exact ⟨owner, hown, (ho s).trans (request_act hb owner s)⟩
    · rw [ho, request_long (by omega)] at h
      cases h

/-- A command that is no reset and answers a next state: a request that a frame carries, a byte received, the end of a frame,
or a happening of the device. -/
theorem exec_cases {c : Instr} (hn : ¬ Resets c) {s t : State} (h : exec c s = .next t) :
    (∃ r owner, requestOf c = some r ∧ Owner owner ∧ exec c s = act s fun s => (s.present r).handle r owner) ∨
    (∃ v, exec c s = act s (State.takeByte v)) ∨ c = .frameSent ∨ ∃ f, DeviceHappening f ∧ exec c s = act s f := by
  cases hr : requestOf c with
  | none =>
    rcases exec_happening_cases hr hn with ⟨v, hv⟩ | hf | ⟨f, hf, he⟩
    · exact .inr (.inl ⟨v, hv s⟩)
    · exact .inr (.inr (.inl hf))
    · exact .inr (.inr (.inr ⟨f, hf, he s⟩))
  | some r =>
    obtain ⟨owner, hown, ho⟩ := exec_request_next hr h
    exact .inl ⟨r, owner, rfl, hown, ho⟩

end Sys2Proof.Machine
end

section
/-! SUPPORT. What every command does to the link side: the happenings of the device nothing, an owner's answer at most a flag,
the handler, the mask or the marks, and the link's own operations the intake, the slots and the cache. -/

namespace Sys2Proof.Machine

/-! ### The device's happenings -/

section Happenings
variable (s : State) (b : BusId)

theorem link_expireTicket (k : Nat) : (s.expireTicket k).link = s.link := by
  unfold State.expireTicket
  split
  · split <;> simp
  · split <;> simp
  all_goals rfl

theorem link_endGap (n : RecordName) : (s.endGap n).link = s.link := by
  unfold State.endGap
  split
  · rfl
  · split <;> simp

theorem link_periodOut (i : PollIndex) : (s.periodOut i).link = s.link := by
  unfold State.periodOut
  split
  · rfl
  · split
    · rfl
    · dsimp only
      split
      · rfl
      · split <;> simp

theorem link_probeTimerOut (h : Handle) : (s.probeTimerOut h).link = s.link := by
  unfold State.probeTimerOut
  split
  · rfl
  · split <;> simp

/-! Conditions and edges. -/

theorem link_conditionInClearing (f : Monitor → Monitor) : (s.conditionInClearing b f).link = s.link := rfl

theorem link_loseToLow (w : Work) (hearing : Option (List Bool)) : (s.loseToLow b w hearing).link = s.link := by
  simp [State.loseToLow]

theorem link_loseToStart (w : Work) : (s.loseToStart b w).link = s.link := by
  simp [State.loseToStart]

theorem link_loseToStop (w : Work) : (s.loseToStop b w).link = s.link := by
  simp [State.loseToStop]

theorem link_seeStart : (s.seeStart b).link = s.link := by
  unfold State.seeStart
  split
  case h_2 w _ => cases w <;> simp
  case h_4 p w _ =>
    split
    · exact link_loseToStart s b w
    · rfl
  all_goals simp [link_conditionInClearing]

theorem link_seeStop : (s.seeStop b).link = s.link := by
  unfold State.seeStop
  split
  case h_4 p w _ =>
    split
    · exact link_loseToStop s b w
    · rfl
  all_goals simp [link_conditionInClearing]

theorem link_raiseBusFree : (s.raiseBusFree b).link = s.link := by
  unfold State.raiseBusFree
  split <;> simp

theorem link_raiseStuck : (s.raiseStuck b).link = s.link := by
  unfold State.raiseStuck
  split <;> simp

theorem link_sense (change : SensedChange) : (s.sense b change).link = s.link := by
  unfold State.sense
  split
  · exact link_seeStart s b
  · rfl
  · rfl
  · exact link_seeStart s b
  · exact link_seeStart s b
  · split <;> rfl
  · rfl

theorem link_stopTold : (s.stopTold b).link = s.link := by
  unfold State.stopTold
  split
  · rfl
  · exact link_seeStop s b

theorem link_freeTold : (s.freeTold b).link = s.link := by
  unfold State.freeTold
  split
  · rfl
  · exact link_raiseBusFree _ b

theorem link_stuckTold : (s.stuckTold b).link = s.link := by
  unfold State.stuckTold
  split
  · exact link_raiseStuck _ b
  · rfl

/-! The engine as controller. -/

theorem link_makeStart : (s.makeStart b).link = s.link := by
  unfold State.makeStart
  dsimp only
  split
  · split <;> simp
  all_goals rfl

theorem link_addressAnswered (ack : AckBit) : (s.addressAnswered b ack).link = s.link := by
  unfold State.addressAnswered
  split
  · rfl
  · split
    · split <;> cases ack <;> simp
    · rfl

theorem link_writeAnswered (ack : AckBit) : (s.writeAnswered b ack).link = s.link := by
  unfold State.writeAnswered
  split
  · rfl
  · split
    · split <;> simp
    · rfl

theorem link_readTaken (part : ReadPart) : (s.readTaken b part).link = s.link := by
  unfold State.readTaken
  split
  · rfl
  · split
    · split <;> simp
    · rfl
    · rfl

theorem link_makeRepeatedStart : (s.makeRepeatedStart b).link = s.link := by
  unfold State.makeRepeatedStart
  split
  · rfl
  · split <;> simp

theorem link_releaseStop (rose : Bool) : (s.releaseStop b rose).link = s.link := by
  unfold State.releaseStop
  split
  · split <;> simp
  all_goals rfl

theorem link_arbitrationLoss (cause : LossCause) : (s.arbitrationLoss b cause).link = s.link := by
  have chosen {u v : State} (hu : u.link = s.link) (hv : v.link = s.link) (c : Prop) [Decidable c] :
      (if c then u else v).link = s.link := by
    split
    · exact hu
    · exact hv
  unfold State.arbitrationLoss
  split
  · split
    · split
      · exact chosen (link_loseToLow s b _ _) (chosen (link_loseToLow s b _ _) rfl _) _
      · rfl
    · exact chosen (link_loseToLow s b _ _) rfl _
    · exact chosen (link_loseToLow s b _ _) rfl _
    · exact chosen (link_loseToStart s b _) rfl _
    · exact chosen (link_loseToStop s b _) rfl _
  all_goals rfl

theorem link_probeAnswered (ack : AckBit) : (s.probeAnswered b ack).link = s.link := by
  unfold State.probeAnswered
  split
  · split <;> simp
  all_goals rfl

theorem link_stallBus : (s.stallBus b).link = s.link := by
  unfold State.stallBus
  split <;> simp

theorem link_endClearing : (s.endClearing b).link = s.link := by
  unfold State.endClearing
  split
  · split <;> simp
  all_goals rfl

theorem link_failClearing : (s.failClearing b).link = s.link := by
  unfold State.failClearing
  split
  next stage _ => by_cases h : stage = .exhausted <;> simp [h]
  all_goals rfl

/-! The responder. -/

theorem link_addressHeard (v : Byte) : (s.addressHeard b v).link = s.link := by
  unfold State.addressHeard
  split
  · split
    · split <;> simp
    · rfl
  all_goals rfl

theorem link_writeIn (v : Byte) : (s.writeIn b v).link = s.link := by
  unfold State.writeIn
  split
  · split <;> simp
  all_goals rfl

theorem link_readOut (ack : AckBit) : (s.readOut b ack).link = s.link := by
  unfold State.readOut
  split
  · split <;> simp
  all_goals rfl

end Happenings

/-- A happening of the device changes nothing of the link. -/
theorem DeviceHappening.link {f : State → State} (hf : DeviceHappening f) (s : State) : (f s).link = s.link := by
  cases hf with
  | gapTimerExpiry =>
    unfold State.gapOut
    split <;> rfl
  | deadlineExpiry k => exact link_expireTicket s k
  | retryGapEnd n => exact link_endGap s n
  | pollPeriodExpiry i => exact link_periodOut s i
  | probeTimerExpiry h => exact link_probeTimerOut s h
  | startSeen b change => exact link_sense s b change
  | stopSeen b => exact link_stopTold s b
  | busFree b => exact link_freeTold s b
  | stuck b => exact link_stuckTold s b
  | startMade b => exact link_makeStart s b
  | addressByteAnswered b ack => exact link_addressAnswered s b ack
  | writeByteAnswered b ack => exact link_writeAnswered s b ack
  | readByteTaken b part => exact link_readTaken s b part
  | repeatedStartMade b => exact link_makeRepeatedStart s b
  | stopReleased b rose => exact link_releaseStop s b rose
  | arbitrationLost b cause => exact link_arbitrationLoss s b cause
  | probeAnswered b ack => exact link_probeAnswered s b ack
  | stall b => exact link_stallBus s b
  | cleared b => exact link_endClearing s b
  | clearingFailed b => exact link_failClearing s b
  | addressByteHeard b v => exact link_addressHeard s b v
  | writeInByte b v => exact link_writeIn s b v
  | readOutByte b ack => exact link_readOut s b ack

end Sys2Proof.Machine
end

section
/-! SUPPORT. The owners' answers: a refusal changes nothing, and an OK changes the link side at most by a flag, the handler, the
mask or the marks (R163 to R165, R169, R156). -/

namespace Sys2Proof.Machine

/-- A plain answer in this state: a refusal that changes nothing, or OK with the link side as it was. -/
def PlainAnswer (s : State) (p : State × Answer) : Prop :=
  (∃ code, code ≠ ReplyCode.ok ∧ p = (s, Answer.refuse code)) ∨
    ∃ u fields, p = (u, Answer.ok fields) ∧ u.link = s.link

theorem PlainAnswer.refused {s : State} {code : ReplyCode} (h : code ≠ .ok) : PlainAnswer s (s, Answer.refuse code) :=
  .inl ⟨code, h, rfl⟩

theorem PlainAnswer.answered {s u : State} {fields : List Byte} (h : u.link = s.link) :
    PlainAnswer s (u, Answer.ok fields) :=
  .inr ⟨u, fields, rfl, h⟩

section
variable (s : State) (body : List Byte)

/-! ### The pool and the result store -/

theorem acceptSubmit_plain (v : SubmitValues) : PlainAnswer s (acceptSubmit v s) := by
  unfold acceptSubmit
  split
  · exact .refused (by decide)
  next e he =>
    split
    · exact .refused (by decide)
    · split
      · exact .refused (by decide)
      · split
        · exact .refused (by decide)
        · split
          · exact .refused (by decide)
          · exact .answered (by rw [link_select, link_setBus]; rfl)

theorem answerSubmit_plain : PlainAnswer s (answerSubmit body s) := by
  unfold answerSubmit
  split
  · exact .refused (by decide)
  · split
    · exact .refused (by decide)
    · exact acceptSubmit_plain s _

theorem cancelTicket_plain (k : Nat) : PlainAnswer s (cancelTicket k s) := by
  unfold cancelTicket
  split
  · exact .answered (by simp)
  · exact .answered (by simp)
  all_goals exact .refused (by decide)

theorem answerCancel_plain : PlainAnswer s (answerCancel body s) := by
  unfold answerCancel
  split
  · split
    · exact .refused (by decide)
    · exact cancelTicket_plain s _
  · exact .refused (by decide)

theorem answerQuery_plain : PlainAnswer s (answerQuery body s) := by
  unfold answerQuery
  split
  · split
    · exact .refused (by decide)
    · split
      · exact .answered rfl
      · exact .refused (by decide)
  · exact .refused (by decide)

theorem answerFlush_plain : PlainAnswer s (answerFlush body s) := by
  unfold answerFlush
  split
  · split
    · exact .answered (by simp [State.flushBus])
    · exact .refused (by decide)
  · exact .refused (by decide)

theorem answerFetch_plain : PlainAnswer s (answerFetch body s) := by
  unfold answerFetch
  split
  · split
    · exact .answered rfl
    · exact .refused (by decide)
  · exact .refused (by decide)

/-! ### The buses -/

theorem configureBus_plain (v : BusSettings) : PlainAnswer s (configureBus v s) := by
  unfold configureBus
  dsimp only
  split
  · exact .refused (by decide)
  · refine .answered ?_
    split
    · split <;> simp
    · simp

theorem answerBusConfig_plain : PlainAnswer s (answerBusConfig body s) := by
  unfold answerBusConfig
  split
  · split
    · exact configureBus_plain s _
    · exact .refused (by decide)
  · exact .refused (by decide)

theorem answerBusStatus_plain : PlainAnswer s (answerBusStatus body s) := by
  unfold answerBusStatus
  split
  · split
    · exact .answered rfl
    · exact .refused (by decide)
  · exact .refused (by decide)

theorem answerBusReset_plain : PlainAnswer s (answerBusReset body s) := by
  unfold answerBusReset
  split
  · split
    · split
      · exact .refused (by decide)
      · exact .answered (by simp [State.resetBus])
    · exact .refused (by decide)
  · exact .refused (by decide)

/-! ### The directory -/

theorem addTarget_plain (e : Entry) : PlainAnswer s (addTarget e s) := by
  unfold addTarget
  split
  · exact .refused (by decide)
  · split
    · exact .refused (by decide)
    · split
      · exact .refused (by decide)
      · exact .answered rfl

theorem answerTargetAdd_plain : PlainAnswer s (answerTargetAdd body s) := by
  unfold answerTargetAdd
  split
  · exact .refused (by decide)
  · split
    · exact .refused (by decide)
    · exact addTarget_plain s _

theorem answerTargetRemove_plain : PlainAnswer s (answerTargetRemove body s) := by
  unfold answerTargetRemove
  split
  · split
    · exact .refused (by decide)
    · split
      · exact .refused (by decide)
      · split
        · exact .refused (by decide)
        · exact .answered rfl
  · exact .refused (by decide)

theorem link_releaseHandle (h : Handle) : (s.releaseHandle h).link = s.link := by
  unfold State.releaseHandle
  split
  · split <;> rfl
  · rfl

theorem answerTargetRelease_plain : PlainAnswer s (answerTargetRelease body s) := by
  unfold answerTargetRelease
  split
  · split
    · exact .refused (by decide)
    · exact .answered (link_releaseHandle s _)
  · exact .refused (by decide)

theorem answerTargetQuery_plain : PlainAnswer s (answerTargetQuery body s) := by
  unfold answerTargetQuery
  split
  · split
    · exact .refused (by decide)
    · exact .answered rfl
  · exact .refused (by decide)

theorem link_dropTargetChanges (hs : List Handle) : (s.dropTargetChanges hs).link = s.link := by
  unfold State.dropTargetChanges
  induction hs generalizing s with
  | nil => rfl
  | cons h hs ih => rw [List.foldl_cons, ih]; rfl

theorem answerTargetChanges_plain : PlainAnswer s (answerTargetChanges body s) := by
  unfold answerTargetChanges
  split
  · split
    · exact .answered (link_dropTargetChanges s _)
    · exact .refused (by decide)
  · exact .refused (by decide)

/-! ### The polls -/

theorem setPollEntry_plain (v : PollValues) : PlainAnswer s (setPollEntry v s) := by
  unfold setPollEntry
  split
  · exact .refused (by decide)
  · split
    · exact .refused (by decide)
    · split
      · exact .refused (by decide)
      · exact .answered rfl

theorem answerPollSet_plain : PlainAnswer s (answerPollSet body s) := by
  unfold answerPollSet
  split
  · exact .refused (by decide)
  · split
    · exact .refused (by decide)
    · exact setPollEntry_plain s _

theorem link_pollOff (i : PollIndex) : (s.pollOff i).link = s.link := by
  unfold State.pollOff
  split <;> rfl

theorem answerPollOff_plain : PlainAnswer s (answerPollOff body s) := by
  unfold answerPollOff
  split
  · split
    · exact .refused (by decide)
    · exact .answered (link_pollOff s _)
  · exact .refused (by decide)

theorem link_dropPollChanges (is : List PollIndex) : (s.dropPollChanges is).link = s.link := by
  unfold State.dropPollChanges
  induction is generalizing s with
  | nil => rfl
  | cons i is ih => rw [List.foldl_cons, ih]; rfl

theorem answerPollRead_plain : PlainAnswer s (answerPollRead body s) := by
  unfold answerPollRead
  split
  · split
    · exact .answered (link_dropPollChanges s _)
    · exact .refused (by decide)
  · exact .refused (by decide)

/-! ### The responder -/

theorem setListen_plain (v : ListenSettings) : PlainAnswer s (setListen v s) := by
  unfold setListen
  split
  · exact .refused (by decide)
  · split
    · exact .refused (by decide)
    · exact .answered rfl

theorem answerListenSet_plain : PlainAnswer s (answerListenSet body s) := by
  unfold answerListenSet
  split
  · split
    · exact setListen_plain s _
    · exact .refused (by decide)
  · exact .refused (by decide)

theorem answerPageSet_plain : PlainAnswer s (answerPageSet body s) := by
  unfold answerPageSet
  split
  · split
    · split
      · exact .answered rfl
      · exact .refused (by decide)
    · exact .refused (by decide)
  · exact .refused (by decide)

theorem answerInboundRead_plain : PlainAnswer s (answerInboundRead body s) := by
  unfold answerInboundRead
  split
  · split
    · exact .answered rfl
    · exact .refused (by decide)
  · exact .refused (by decide)

/-! ### The handler, the flags and the link -/

theorem answerLinkStatus_plain : PlainAnswer s (answerLinkStatus body s) := by
  unfold answerLinkStatus
  split
  · exact .answered rfl
  · exact .refused (by decide)

theorem answerHello_cases :
    PlainAnswer s (answerHello body s) ∨
      ∃ fields, answerHello body s = ({ s with restarted := false }, Answer.ok fields) := by
  unfold answerHello
  split
  · exact .inr ⟨_, rfl⟩
  · exact .inl (.refused (by decide))

theorem answerHubReset_cases :
    PlainAnswer s (answerHubReset body s) ∨
      answerHubReset body s = ({ s with handler := .halted }, { code := .ok, fields := [], mark := .resetPoint }) := by
  unfold answerHubReset
  split
  · exact .inr rfl
  · exact .inl (.refused (by decide))

theorem answerAttentionMask_cases :
    PlainAnswer s (answerAttentionMask body s) ∨
      ∃ mask announced fields,
        answerAttentionMask body s = ({ s with mask := mask, announced := announced }, Answer.ok fields) := by
  unfold answerAttentionMask
  split
  · split
    · exact .inr ⟨_, _, _, rfl⟩
    · exact .inl (.refused (by decide))
  all_goals exact .inl (.refused (by decide))

theorem answerLinkConfig_cases :
    PlainAnswer s (answerLinkConfig body s) ∨
      ∃ rate fields, answerLinkConfig body s =
        ({ s.dropSwitchPoint with pendingRate := some rate }, { code := .ok, fields := fields, mark := .switchPoint }) := by
  unfold answerLinkConfig
  split
  · split
    · exact .inr ⟨_, _, rfl⟩
    · exact .inl (.refused (by decide))
  · exact .inl (.refused (by decide))

end

/-- Every owner's answer: plain, or one of the four that act on the link side. -/
theorem Owner.cases {owner : State → State × Answer} (ho : Owner owner) (s : State) :
    PlainAnswer s (owner s) ∨
    (∃ fields, owner s = ({ s with restarted := false }, Answer.ok fields)) ∨
    owner s = ({ s with handler := .halted }, { code := .ok, fields := [], mark := .resetPoint }) ∨
    (∃ mask announced fields, owner s = ({ s with mask := mask, announced := announced }, Answer.ok fields)) ∨
    ∃ rate fields, owner s =
      ({ s.dropSwitchPoint with pendingRate := some rate }, { code := .ok, fields := fields, mark := .switchPoint }) := by
  cases ho with
  | hello body => exact (answerHello_cases s body).imp_right .inl
  | hubReset body => exact (answerHubReset_cases s body).imp_right fun h => .inr (.inl h)
  | attentionMask body => exact (answerAttentionMask_cases s body).imp_right fun h => .inr (.inr (.inl h))
  | linkConfig body => exact (answerLinkConfig_cases s body).imp_right fun h => .inr (.inr (.inr h))
  | linkStatus body => exact .inl (answerLinkStatus_plain s body)
  | submit body => exact .inl (answerSubmit_plain s body)
  | cancel body => exact .inl (answerCancel_plain s body)
  | query body => exact .inl (answerQuery_plain s body)
  | flush body => exact .inl (answerFlush_plain s body)
  | fetch body => exact .inl (answerFetch_plain s body)
  | busConfig body => exact .inl (answerBusConfig_plain s body)
  | busStatus body => exact .inl (answerBusStatus_plain s body)
  | busReset body => exact .inl (answerBusReset_plain s body)
  | targetAdd body => exact .inl (answerTargetAdd_plain s body)
  | targetRemove body => exact .inl (answerTargetRemove_plain s body)
  | targetRelease body => exact .inl (answerTargetRelease_plain s body)
  | targetQuery body => exact .inl (answerTargetQuery_plain s body)
  | targetChanges body => exact .inl (answerTargetChanges_plain s body)
  | pollSet body => exact .inl (answerPollSet_plain s body)
  | pollOff body => exact .inl (answerPollOff_plain s body)
  | pollRead body => exact .inl (answerPollRead_plain s body)
  | listenSet body => exact .inl (answerListenSet_plain s body)
  | pageSet body => exact .inl (answerPageSet_plain s body)
  | inboundRead body => exact .inl (answerInboundRead_plain s body)
  | unknownKind => exact .inl (.refused (by decide))

/-- Every owner's refusal changes nothing and is marked plain. -/
theorem Owner.refused {owner : State → State × Answer} (ho : Owner owner) {s : State} (hc : (owner s).2.code ≠ .ok) :
    ∃ code, code ≠ .ok ∧ owner s = (s, Answer.refuse code) := by
  rcases ho.cases s with (h | ⟨u, fields, h, -⟩) | ⟨fields, h⟩ | h | ⟨mask, announced, fields, h⟩ | ⟨rate, fields, h⟩
  · exact h
  all_goals exact absurd rfl (h ▸ hc)

end Sys2Proof.Machine
end

section
/-! SUPPORT. The replies owed: what each operation of the link makes of them, and how a law of the link side is proved for
every step. -/

namespace Sys2Proof.Machine

/-! ### The replies owed -/

@[simp] theorem owed_composeNotice (u : State) : u.composeNotice.owed = u.filled := rfl

@[simp] theorem owed_startReply (u : State) : u.startReply.owed = u.filled := by
  unfold State.startReply
  split
  next h => simp [State.owed, h]
  next h => simp [State.owed, h]

/-- Once a frame has ended, the replies owed are the slots that were filled. -/
@[simp] theorem owed_chooseFrame (u : State) : u.chooseFrame.owed = u.filled := by
  unfold State.chooseFrame
  split <;> simp

/-- The end of a step leaves the replies owed. -/
theorem Settled.owed {u t : State} (h : Settled u t) : t.owed = u.owed := by
  rcases h with ⟨ht, -⟩ | ⟨ht, hi, -⟩ | ⟨r, rest, hf, hi, -, ht⟩
  · rw [ht]; rfl
  · rw [ht]; simp [State.owed, hi]
  · rw [ht]; simp [State.owed, hi, hf]

/-- What of the link side settling leaves. -/
theorem Settled.link_kept {u t : State} (h : Settled u t) :
    t.intake = u.intake ∧ t.cache = u.cache ∧ t.handler = u.handler ∧ t.pendingRate = u.pendingRate ∧
      t.resetLow = u.resetLow := by
  rcases h with ⟨ht, -⟩ | ⟨ht, -, -⟩ | ⟨r, rest, -, -, -, ht⟩ <;> rw [ht] <;> exact ⟨rfl, rfl, rfl, rfl, rfl⟩

/-- A frame in progress is still in progress when its step has settled. -/
theorem Settled.transmitter {u t : State} (h : Settled u t) (hn : u.transmitter ≠ .idle) :
    t.transmitter = u.transmitter := by
  rcases h with ⟨ht, -⟩ | ⟨-, hi, -⟩ | ⟨r, rest, -, hi, -, -⟩
  · rw [ht]
  · exact absurd hi hn
  · exact absurd hi hn

theorem owed_append (u : State) (l : List Reply) : ({ u with filled := u.filled ++ l } : State).owed = u.owed ++ l := by
  simp [State.owed]

theorem owed_placeReply (u : State) (kind tag : Byte) (a : Answer) :
    (u.placeReply kind tag a).owed = u.owed ++ [{ frame := replyFrame u kind tag a, mark := a.mark }] :=
  owed_append u _

theorem owed_dropSwitchPoint (u : State) : u.dropSwitchPoint.owed = u.owed.map Reply.unswitched := by
  unfold State.dropSwitchPoint State.owed
  cases u.transmitter <;> simp

/-- A slot is FREE exactly when requests and replies owed are fewer than eight. -/
theorem State.freeSlots_ne_zero_iff (u : State) : u.freeSlots ≠ 0 ↔ u.intake.length + u.owed.length < 8 := by
  simp only [State.freeSlots, Config.replySlots]
  omega

/-! ### Taking a good frame -/

/-- The tag check drops a frame, answers it by a re-send, or passes it to the room check with a tag that is 0 or that neither
the intake nor the cache holds (R150). -/
theorem takeFrame_cases (s : State) (r : Request) :
    (∃ d, s.takeFrame r = { s with discards := d }) ∨
    (∃ f, s.freeSlots ≠ 0 ∧ s.takeFrame r = { s with filled := s.filled ++ [{ frame := f, mark := .plain }] }) ∨
    (r.tag = 0x00#8 ∧ s.takeFrame r = s.roomCheck r) ∨
    (r.tag ≠ 0x00#8 ∧ (∀ q ∈ s.intake, q.tag ≠ r.tag) ∧
      s.takeFrame r = ({ s with cache := s.cache.filter fun c => c.tag != r.tag } : State).roomCheck r) := by
  unfold State.takeFrame
  split
  next h0 => exact .inr (.inr (.inl ⟨h0, rfl⟩))
  next h0 =>
    split
    · exact .inl ⟨_, rfl⟩
    next hq =>
      have hq' : ∀ q ∈ s.intake, q.tag ≠ r.tag := by simpa using hq
      split
      next c hc =>
        split
        · split
          · exact .inl ⟨_, rfl⟩
          next hf => exact .inr (.inl ⟨_, hf, rfl⟩)
        · exact .inr (.inr (.inr ⟨h0, hq', rfl⟩))
      next hc =>
        have hall : s.cache.filter (fun c => c.tag != r.tag) = s.cache := by simpa using hc
        exact .inr (.inr (.inr ⟨h0, hq', by rw [hall]⟩))

/-! ### A law of the link side -/

/-- A law that looks at the link side alone, and how each operation of the link keeps it. -/
structure LinkLaw (P : State → Prop) : Prop where
  link : ∀ s, P s ↔ P s.link
  pending : ∀ s p, P s → P { s with pending := p }
  settled : ∀ u t, Settled u t → P u → P t
  takeFrame : ∀ s r, P s → P (s.takeFrame r)
  answered : ∀ s r owner, Owner owner → s.ready r → P s → P ((owner s.taking).1.placeReply r.kind r.tag (owner s.taking).2)
  endFrame : ∀ s, s.resetLow = false → P s → P s.endFrame
  powerUp : ∀ s : State, P s.powerUp
  assertReset : ∀ s : State, P s → P s.assertReset

section
variable {P : State → Prop}

theorem LinkLaw.of_link (hP : LinkLaw P) {s t : State} (h : t.link = s.link) (hs : P s) : P t :=
  (hP.link t).mpr (h ▸ (hP.link s).mp hs)

theorem LinkLaw.act (hP : LinkLaw P) {s t : State} {f : State → State} (hf : s.resetLow = false → P s → P (f s))
    (hs : P s) (h : act s f = .next t) : P t := by
  rcases act_next h with ⟨-, rfl⟩ | ⟨hl, rfl⟩
  · exact hs
  · exact hP.settled _ _ (settle_settled _) (hf hl hs)

theorem link_takeReceiver (s : State) (r : Receiver) : ({ s with receiver := r } : State).link = s.link := rfl

theorem LinkLaw.byteEffect (hP : LinkLaw P) {s : State} (x : ByteEffect) (hs : P s) : P (s.byteEffect x) := by
  cases x with
  | good r => exact hP.takeFrame s r hs
  | nothing => exact hs
  | _ => exact hP.of_link (by rfl) hs

theorem resetLow_takeFrame (s : State) (r : Request) : (s.takeFrame r).resetLow = s.resetLow := by
  obtain ⟨i, f, c, d, h⟩ := takeFrame_frame s r
  rw [h]

theorem resetLow_present (s : State) (r : Request) : (s.present r).resetLow = s.resetLow := by
  unfold State.present
  split
  · rfl
  · exact resetLow_takeFrame s r

/-- A request at the head of a READY handler's intake is answered; any other is let be. -/
theorem handle_cases (s : State) (r : Request) (owner : State → State × Answer) :
    s.handle r owner = s ∨ (s.handler = .ready ∧ s.intake.head? = some r ∧
      s.handle r owner = (owner s.taking).1.placeReply r.kind r.tag (owner s.taking).2) := by
  unfold State.handle
  split
  next h => exact .inr ⟨h.1, h.2, rfl⟩
  · exact .inl rfl

theorem LinkLaw.exec (hP : LinkLaw P) (c : Instr) (s t : State) (hs : P s) (h : exec c s = .next t) : P t := by
  by_cases hn : Resets c
  · rcases hn with rfl | rfl | rfl
    · cases h
      exact hP.powerUp s
    · cases h
      split
      · exact hs
      · exact hP.assertReset s hs
    · cases h
      split
      · exact hP.powerUp _
      · exact hs
  · rcases exec_cases hn h with ⟨r, owner, -, ho, he⟩ | ⟨v, he⟩ | rfl | ⟨f, hf, he⟩
    · refine hP.act (fun hl hs => ?_) hs (he ▸ h)
      have hp : P (s.present r) := by
        unfold State.present
        split
        · exact hs
        · exact hP.takeFrame s r hs
      rcases handle_cases (s.present r) r owner with hh | ⟨hr, hi, hh⟩
      · rw [hh]; exact hp
      · rw [hh]; exact hP.answered _ r owner ho ⟨(resetLow_present s r).trans hl, hr, hi⟩ hp
    · exact hP.act (fun _ hs => hP.byteEffect _ (hP.of_link (link_takeReceiver s _) hs)) hs (he ▸ h)
    · exact hP.act (fun hl hs => hP.endFrame s hl hs) hs h
    · exact hP.act (fun _ hs => hP.of_link (hf.link s) hs) hs (he ▸ h)

theorem LinkLaw.step (hP : LinkLaw P) {s t : State} (hs : P s) (h : step s = .next t) : P t :=
  step_keeps hP.pending hP.exec (fun s _ hs => hP.settled _ _ (settle_settled _) (hP.of_link (link_pass s 1000) hs)) hs h

end

end Sys2Proof.Machine
end

section
/-! SUPPORT. The slots, the intake and the reply cache: every operation of the link keeps their laws (R150, R152, R154). -/

namespace Sys2Proof.Machine

/-- The laws of the slots, the intake and the cache. -/
def State.SlotLaws (s : State) : Prop := s.SlotsFit ∧ s.IntakeTagsDistinct ∧ s.CacheSound

/-- The laws read the intake, the replies owed and the cache alone; fewer replies owed keep them. -/
theorem State.SlotLaws.of_parts {s t : State} (hs : s.SlotLaws) (hi : t.intake = s.intake) (hc : t.cache = s.cache)
    (ho : t.owed.length ≤ s.owed.length) : t.SlotLaws := by
  obtain ⟨⟨hplaces, hslots⟩, htags, hcache⟩ := hs
  refine ⟨⟨hi ▸ hplaces, by rw [hi]; omega⟩, ?_, ?_⟩
  · simpa only [State.IntakeTagsDistinct, hi] using htags
  · simpa only [State.CacheSound, hi, hc] using hcache

theorem slotLaws_of_empty {s : State} (hi : s.intake = []) (hc : s.cache = []) (ho : s.owed = []) : s.SlotLaws := by
  refine ⟨⟨by simp [hi], by simp [hi, ho]⟩, ?_, ?_⟩
  · rw [State.IntakeTagsDistinct, hi]
    exact List.nodup_nil
  · rw [State.CacheSound, hc]
    exact ⟨Nat.zero_le _, List.nodup_nil, fun _ h => absurd h List.not_mem_nil⟩

/-- The cache without the entries of some tag keeps its law. -/
theorem State.SlotLaws.filter_cache {s : State} (hs : s.SlotLaws) (p : CacheEntry → Bool) :
    State.SlotLaws { s with cache := s.cache.filter p } := by
  obtain ⟨hfit, htags, hlen, hnodup, hsound⟩ := hs
  refine ⟨hfit, htags, (List.length_filter_le _ _).trans hlen, ?_, fun c hc => hsound c (List.mem_of_mem_filter hc)⟩
  exact hnodup.sublist (List.filter_sublist.map _)

/-- The room check keeps the laws for a request whose tag is 0, or is held by neither the intake nor the cache. -/
theorem State.SlotLaws.roomCheck {s : State} (hs : s.SlotLaws) {r : Request}
    (hq : r.tag ≠ 0x00#8 → ∀ q ∈ s.intake, q.tag ≠ r.tag) (hc : ∀ c ∈ s.cache, c.tag ≠ r.tag) :
    (s.roomCheck r).SlotLaws := by
  obtain ⟨⟨hplaces, hslots⟩, htags, hlen, hnodup, hsound⟩ := hs
  rcases roomCheck_cases s r with ⟨-, h⟩ | ⟨hfree, hroom, h⟩ | ⟨hfree, -, h⟩
  · rw [h]
    exact ⟨⟨hplaces, hslots⟩, htags, hlen, hnodup, hsound⟩
  · rw [h]
    rw [State.freeSlots_ne_zero_iff] at hfree
    refine ⟨⟨by simp only [List.length_append, List.length_singleton]; omega, ?_⟩, ?_, hlen, hnodup, ?_⟩
    · change (s.intake ++ [r]).length + s.owed.length ≤ 8
      simp only [List.length_append, List.length_singleton]
      omega
    · rw [State.IntakeTagsDistinct]
      simp only [List.map_append, List.map_cons, List.map_nil, List.filter_append]
      refine List.Nodup.append htags ?_ ?_
      · exact (List.nodup_singleton _).filter _
      · intro t ht htr
        obtain ⟨htr, hne⟩ := List.mem_filter.mp htr
        obtain rfl := List.mem_singleton.mp htr
        obtain ⟨q, hqm, hqt⟩ := List.mem_map.mp (List.mem_of_mem_filter ht)
        exact hq (by simpa using hne) q hqm hqt
    · intro c hcm
      refine ⟨(hsound c hcm).1, fun q hqm => ?_⟩
      rcases List.mem_append.mp hqm with hqm | hqm
      · exact (hsound c hcm).2 q hqm
      · obtain rfl := List.mem_singleton.mp hqm
        exact (hc c hcm).symm
  · rw [h]
    rw [State.freeSlots_ne_zero_iff] at hfree
    refine ⟨⟨hplaces, ?_⟩, htags, hlen, hnodup, hsound⟩
    rw [owed_append]
    simp only [List.length_append, List.length_singleton, Config.replySlots]
    omega

theorem State.SlotLaws.takeFrame {s : State} (hs : s.SlotLaws) (r : Request) : (s.takeFrame r).SlotLaws := by
  rcases takeFrame_cases s r with ⟨d, h⟩ | ⟨f, hfree, h⟩ | ⟨h0, h⟩ | ⟨h0, hq, h⟩
  · rw [h]
    exact hs.of_parts rfl rfl le_rfl
  · rw [h]
    obtain ⟨⟨hplaces, hslots⟩, htags, hcache⟩ := hs
    rw [State.freeSlots_ne_zero_iff] at hfree
    refine ⟨⟨hplaces, ?_⟩, htags, hcache⟩
    rw [owed_append]
    simp only [List.length_append, List.length_singleton, Config.replySlots]
    omega
  · rw [h]
    obtain ⟨-, -, -, -, hsound⟩ := id hs
    exact hs.roomCheck (fun hn => absurd h0 hn) fun c hc => h0 ▸ (hsound c hc).1
  · rw [h]
    refine (hs.filter_cache _).roomCheck (fun _ => hq) fun c hc => ?_
    simpa using (List.mem_filter.mp hc).2

/-- The cache joined by the reply of a request that leaves the intake keeps its law. -/
theorem length_cacheJoin_le {c : List CacheEntry} (hc : c.length ≤ Config.cacheEntries) (e : CacheEntry) :
    (cacheJoin c e).length ≤ Config.cacheEntries := by
  unfold cacheJoin
  split
  next h => simpa using h
  next h =>
    simp only [Config.cacheEntries] at hc h ⊢
    simp only [List.length_append, List.length_drop, List.length_singleton]
    omega

theorem mem_cacheJoin {c : List CacheEntry} {d e : CacheEntry} (h : d ∈ cacheJoin c e) : d ∈ c ∨ d = e := by
  unfold cacheJoin at h
  rcases List.mem_append.mp h with h | h
  · split at h
    · exact .inl h
    · exact .inl (List.mem_of_mem_drop h)
  · exact .inr (List.mem_singleton.mp h)

theorem nodup_tags_cacheJoin {c : List CacheEntry} {e : CacheEntry} (hc : (c.map CacheEntry.tag).Nodup)
    (he : ∀ d ∈ c, d.tag ≠ e.tag) : ((cacheJoin c e).map CacheEntry.tag).Nodup := by
  have hsub : (if c.length < Config.cacheEntries then c else c.drop 1).Sublist c := by
    split
    · exact List.Sublist.refl c
    · exact List.drop_sublist 1 c
  rw [cacheJoin, List.map_append]
  refine List.Nodup.append (hc.sublist (hsub.map _)) (List.nodup_singleton _) fun t ht hte => ?_
  obtain ⟨d, hd, rfl⟩ := List.mem_map.mp ht
  exact he d (hsub.subset hd) (List.mem_singleton.mp hte)

/-- A request leaves the intake and its reply is placed: the slot passes from the one to the other. -/
theorem State.SlotLaws.placeReply {s u : State} {r : Request} (hs : s.SlotLaws) (hr : s.intake.head? = some r)
    (hi : u.intake = s.intake.tail) (hc : u.cache = s.cache) (ho : u.owed.length = s.owed.length) (a : Answer) :
    (u.placeReply r.kind r.tag a).SlotLaws := by
  obtain ⟨rest, hrest⟩ : ∃ rest, s.intake = r :: rest := by
    cases h : s.intake with
    | nil => simp [h] at hr
    | cons q rest => exact ⟨rest, by rw [h] at hr; rw [Option.some.inj hr]⟩
  obtain ⟨⟨hplaces, hslots⟩, htags, hlen, hnodup, hsound⟩ := hs
  have hi' : (u.placeReply r.kind r.tag a).intake = rest := by rw [State.placeReply, hi, hrest]; rfl
  rw [hrest, List.length_cons] at hplaces hslots
  have htags' : (if r.tag = 0x00#8 then [] else [r.tag]) ++ ((rest.map Request.tag).filter fun t => t != 0x00#8)
      = (s.intake.map Request.tag).filter fun t => t != 0x00#8 := by
    rw [hrest]
    by_cases h0 : r.tag = 0x00#8 <;> simp [h0]
  rw [State.IntakeTagsDistinct, ← htags'] at htags
  obtain ⟨-, hresttags, hdisjoint⟩ := List.nodup_append'.mp htags
  refine ⟨⟨by rw [hi']; omega, ?_⟩, ?_, ?_⟩
  · rw [hi', owed_placeReply, List.length_append, ho, List.length_singleton]
    omega
  · rw [State.IntakeTagsDistinct, hi']
    exact hresttags
  · rw [State.CacheSound, hi']
    by_cases h0 : r.tag = 0x00#8
    · have hcache : (u.placeReply r.kind r.tag a).cache = s.cache := by rw [State.placeReply, hc]; simp [h0]
      rw [hcache]
      exact ⟨hlen, hnodup, fun c hcm => ⟨(hsound c hcm).1, fun q hq => (hsound c hcm).2 q (by simp [hrest, hq])⟩⟩
    · have hcache : (u.placeReply r.kind r.tag a).cache =
          cacheJoin s.cache { tag := r.tag, kind := r.kind, frame := replyFrame u r.kind r.tag a } := by
        rw [State.placeReply, hc]; simp [h0]
      rw [hcache]
      refine ⟨length_cacheJoin_le hlen _, nodup_tags_cacheJoin hnodup fun c hcm => ?_, fun c hcm => ?_⟩
      · exact ((hsound c hcm).2 r (by simp [hrest])).symm
      · rcases mem_cacheJoin hcm with hcm | rfl
        · exact ⟨(hsound c hcm).1, fun q hq => (hsound c hcm).2 q (by simp [hrest, hq])⟩
        · refine ⟨h0, fun q hq hqt => hdisjoint (a := r.tag) (by simp [h0]) ?_⟩
          exact List.mem_filter.mpr ⟨List.mem_map.mpr ⟨q, hq, hqt⟩, by simpa using h0⟩

/-- What an owner leaves of the intake, the cache and the replies owed. -/
theorem Owner.slots_kept {owner : State → State × Answer} (ho : Owner owner) (s : State) :
    (owner s).1.intake = s.intake ∧ (owner s).1.cache = s.cache ∧ (owner s).1.owed.length = s.owed.length := by
  rcases ho.cases s with (⟨code, -, h⟩ | ⟨u, fields, h, hu⟩) | ⟨fields, h⟩ | h | ⟨mask, announced, fields, h⟩ | ⟨rate, fields, h⟩
  · rw [h]; exact ⟨rfl, rfl, rfl⟩
  · rw [h]
    exact ⟨(congrArg State.intake hu :), (congrArg State.cache hu :), (congrArg (fun v => v.owed.length) hu :)⟩
  · rw [h]; exact ⟨rfl, rfl, rfl⟩
  · rw [h]; exact ⟨rfl, rfl, rfl⟩
  · rw [h]; exact ⟨rfl, rfl, rfl⟩
  · rw [h]
    refine ⟨rfl, rfl, ?_⟩
    change s.dropSwitchPoint.owed.length = s.owed.length
    rw [owed_dropSwitchPoint, List.length_map]

theorem State.SlotLaws.endFrame {s : State} (hs : s.SlotLaws) : s.endFrame.SlotLaws := by
  have hchoose (u : State) (hu : u.SlotLaws) : u.chooseFrame.SlotLaws := by
    refine hu.of_parts ?_ ?_ (by rw [owed_chooseFrame, State.owed, List.length_append]; omega)
    all_goals
      unfold State.chooseFrame
      split
      · rfl
      · unfold State.startReply
        split <;> rfl
  unfold State.endFrame
  split
  · exact hs
  · exact hchoose s hs
  · split
    · exact hchoose s hs
    · exact hchoose _ (hs.of_parts rfl rfl le_rfl)
    · exact hchoose _ (slotLaws_of_empty rfl rfl rfl)

theorem slotLaws_powerUp (s : State) : s.powerUp.SlotLaws := by
  cases h : s.resetLow with
  | false => rw [powerUp_high h]; exact slotLaws_of_empty rfl rfl rfl
  | true => rw [powerUp_low h]; exact slotLaws_of_empty rfl rfl rfl

theorem slotLaws_linkLaw : LinkLaw State.SlotLaws where
  link _ := Iff.rfl
  pending _ _ h := h
  settled u t h hu := by
    obtain ⟨hi, hc, -⟩ := h.link_kept
    exact hu.of_parts hi hc (by rw [h.owed])
  takeFrame s r hs := hs.takeFrame r
  answered s r owner ho hr hs := by
    obtain ⟨hi, hc, hl⟩ := ho.slots_kept s.taking
    exact hs.placeReply hr.2.2 hi hc hl _
  endFrame s _ hs := hs.endFrame
  powerUp := slotLaws_powerUp
  assertReset s hs := hs.of_parts rfl rfl (by simp [State.owed, State.assertReset])

/-- Settles O53: the laws look at the link side alone, and every operation of the link keeps them. -/
theorem stepKeepsTheSlotLaws : Obligations.StepKeepsTheSlotLaws :=
  fun _ _ hs h => slotLaws_linkLaw.step hs h

end Sys2Proof.Machine
end

section
/-! SUPPORT. The marks of the replies owed, and the order in which replies are owed (R153, R155, R156, R165). -/

namespace Sys2Proof.Machine

/-! ### Replies that the checks of a frame place -/

/-- The room check places at most a plain reply behind those owed. -/
theorem roomCheck_owed (s : State) (r : Request) :
    ∃ l, (∀ p ∈ l, p.mark = .plain) ∧ (s.roomCheck r).owed = s.owed ++ l ∧
      (s.roomCheck r).transmitter = s.transmitter := by
  rcases roomCheck_cases s r with ⟨-, h⟩ | ⟨-, -, h⟩ | ⟨-, -, h⟩
  · exact ⟨[], by simp, by simp [h], by rw [h]⟩
  · exact ⟨[], by simp, by rw [h, List.append_nil]; rfl, by rw [h]⟩
  · exact ⟨_, fun p hp => List.mem_singleton.mp hp ▸ rfl, by rw [h, owed_append], by rw [h]⟩

/-- The tag check places at most a plain reply behind those owed. -/
theorem takeFrame_owed (s : State) (r : Request) :
    ∃ l, (∀ p ∈ l, p.mark = .plain) ∧ (s.takeFrame r).owed = s.owed ++ l ∧
      (s.takeFrame r).transmitter = s.transmitter := by
  rcases takeFrame_cases s r with ⟨d, h⟩ | ⟨f, -, h⟩ | ⟨-, h⟩ | ⟨-, -, h⟩
  · exact ⟨[], by simp, by rw [h, List.append_nil]; rfl, by rw [h]⟩
  · exact ⟨_, fun p hp => List.mem_singleton.mp hp ▸ rfl, by rw [h, owed_append], by rw [h]⟩
  · rw [h]
    exact roomCheck_owed s r
  · rw [h]
    exact roomCheck_owed { s with cache := s.cache.filter fun c => c.tag != r.tag } r

theorem takeFrame_kept (s : State) (r : Request) :
    (s.takeFrame r).handler = s.handler ∧ (s.takeFrame r).pendingRate = s.pendingRate ∧
      (s.takeFrame r).resetLow = s.resetLow := by
  obtain ⟨i, f, c, d, h⟩ := takeFrame_frame s r
  rw [h]
  exact ⟨rfl, rfl, rfl⟩

/-! ### The marks -/

/-- A step that keeps the handler and the pending rate keeps the marks' law when it keeps how many replies carry each mark. -/
theorem marksKept_of_counts {s t : State} (hs : s.MarksKept) (hl : t.resetLow = s.resetLow) (hh : t.handler = s.handler)
    (hr : t.pendingRate = s.pendingRate) (hm : ∀ m, m ≠ .plain → t.marksOwed m = s.marksOwed m) : t.MarksKept := by
  intro htl
  rw [hh, hr, hm _ (by decide), hm _ (by decide)]
  exact hs (hl ▸ htl)

theorem marksOwed_append {s t : State} {l : List Reply} (h : t.owed = s.owed ++ l) (m : ReplyMark) :
    t.marksOwed m = s.marksOwed m + l.countP fun r => r.mark == m := by
  rw [State.marksOwed, h, List.countP_append]
  rfl

/-- Plain replies carry no mark. -/
theorem marksOwed_append_plain {s t : State} {l : List Reply} (h : t.owed = s.owed ++ l) (hl : ∀ p ∈ l, p.mark = .plain)
    {m : ReplyMark} (hm : m ≠ .plain) : t.marksOwed m = s.marksOwed m := by
  rw [marksOwed_append h, List.countP_eq_zero.mpr fun p hp => by simpa [hl p hp] using hm.symm, Nat.add_zero]

theorem marksOwed_placeReply (u : State) (kind tag : Byte) (a : Answer) (m : ReplyMark) :
    (u.placeReply kind tag a).marksOwed m = u.marksOwed m + if a.mark = m then 1 else 0 := by
  rw [marksOwed_append (owed_placeReply u kind tag a)]
  simp [List.countP_singleton]

theorem marksOwed_dropSwitchPoint_switch (u : State) : u.dropSwitchPoint.marksOwed .switchPoint = 0 := by
  rw [State.marksOwed, owed_dropSwitchPoint, List.countP_map, List.countP_eq_zero]
  intro r _
  cases h : r.mark <;> simp [Reply.unswitched, h]

theorem marksOwed_dropSwitchPoint_reset (u : State) :
    u.dropSwitchPoint.marksOwed .resetPoint = u.marksOwed .resetPoint := by
  rw [State.marksOwed, owed_dropSwitchPoint, List.countP_map]
  refine List.countP_congr fun r _ => ?_
  cases h : r.mark <;> simp [Reply.unswitched, h]

theorem marksKept_takeFrame {s : State} (hs : s.MarksKept) (r : Request) : (s.takeFrame r).MarksKept := by
  obtain ⟨hh, hr, hl⟩ := takeFrame_kept s r
  obtain ⟨l, hplain, ho, -⟩ := takeFrame_owed s r
  exact marksKept_of_counts hs hl hh hr fun m hm => marksOwed_append_plain ho hplain hm

/-- A reply placed for a READY handler: a plain one, the reset point as the handler halts, or the one switch point. -/
theorem marksKept_answered {s : State} {r : Request} {owner : State → State × Answer} (ho : Owner owner)
    (hr : s.ready r) (hs : s.MarksKept) :
    ((owner s.taking).1.placeReply r.kind r.tag (owner s.taking).2).MarksKept := by
  obtain ⟨hl, hready, -⟩ := hr
  obtain ⟨hswitch, hreset⟩ := hs hl
  rw [hready] at hreset
  intro _
  rcases ho.cases s.taking with (⟨code, -, h⟩ | ⟨u, fields, h, hu⟩) | ⟨fields, h⟩ | h | ⟨mask, announced, fields, h⟩ |
    ⟨rate, fields, h⟩
  · rw [h, marksOwed_placeReply, marksOwed_placeReply]
    exact ⟨hswitch, hreset.trans (by simp [State.placeReply, State.taking, hready])⟩
  · rw [h, marksOwed_placeReply, marksOwed_placeReply]
    have hm (m : ReplyMark) : u.marksOwed m = s.marksOwed m := (congrArg (fun v => v.marksOwed m) hu :)
    have hp : u.pendingRate = s.pendingRate := (congrArg State.pendingRate hu :)
    have hh : u.handler = .ready := (congrArg State.handler hu :).trans hready
    rw [hm, hm, hswitch, hreset]
    exact ⟨by simp [State.placeReply, Answer.ok, hp], by simp [State.placeReply, Answer.ok, hh]⟩
  · rw [h, marksOwed_placeReply, marksOwed_placeReply]
    exact ⟨hswitch, hreset.trans (by simp [State.placeReply, State.taking, hready])⟩
  · rw [h, marksOwed_placeReply, marksOwed_placeReply]
    refine ⟨hswitch, ?_⟩
    have h0 : State.marksOwed { s.taking with handler := .halted } .resetPoint = 0 := hreset
    simp [State.placeReply, h0]
  · rw [h, marksOwed_placeReply, marksOwed_placeReply]
    exact ⟨hswitch, hreset.trans (by simp [State.placeReply, State.taking, hready])⟩
  · rw [h, marksOwed_placeReply, marksOwed_placeReply]
    have h0 : State.marksOwed { s.taking.dropSwitchPoint with pendingRate := some rate } .switchPoint = 0 :=
      marksOwed_dropSwitchPoint_switch s.taking
    have h1 : State.marksOwed { s.taking.dropSwitchPoint with pendingRate := some rate } .resetPoint = 0 :=
      (marksOwed_dropSwitchPoint_reset s.taking).trans hreset
    refine ⟨(congrArg (· + _) h0).trans rfl, (congrArg (· + _) h1).trans ?_⟩
    simp [State.placeReply, State.dropSwitchPoint, State.taking, hready]

/-- The reply on TXD is the first of those owed. -/
theorem owed_of_reply {s : State} {r : Reply} (h : s.transmitter = .reply r) : s.owed = r :: s.filled := by
  simp [State.owed, h]

theorem owed_of_notice {s : State} {f : Frame} (h : s.transmitter = .notice f) : s.owed = s.filled := by
  simp [State.owed, h]

theorem chooseFrame_kept (s : State) :
    s.chooseFrame.handler = s.handler ∧ s.chooseFrame.pendingRate = s.pendingRate ∧
      s.chooseFrame.resetLow = s.resetLow := by
  unfold State.chooseFrame
  split
  · exact ⟨rfl, rfl, rfl⟩
  · unfold State.startReply
    split <;> exact ⟨rfl, rfl, rfl⟩

theorem marksOwed_chooseFrame (s : State) (m : ReplyMark) :
    s.chooseFrame.marksOwed m = s.filled.countP fun r => r.mark == m := by
  rw [State.marksOwed, owed_chooseFrame]

theorem marksKept_endFrame {s : State} (hl : s.resetLow = false) (hs : s.MarksKept) : s.endFrame.MarksKept := by
  have hkept := chooseFrame_kept
  unfold State.endFrame
  split
  · exact hs
  next f ht =>
    obtain ⟨hh, hr, hlow⟩ := hkept s
    refine marksKept_of_counts hs hlow hh hr fun m _ => ?_
    rw [marksOwed_chooseFrame, State.marksOwed, owed_of_notice ht]
  next r ht =>
    have ho := owed_of_reply ht
    obtain ⟨hswitch, hreset⟩ := hs hl
    rw [State.marksOwed, ho, List.countP_cons] at hswitch hreset
    split
    next hm =>
      obtain ⟨hh, hr, hlow⟩ := hkept s
      refine marksKept_of_counts hs hlow hh hr fun m hne => ?_
      rw [marksOwed_chooseFrame, State.marksOwed, ho, List.countP_cons_of_neg (by simpa [hm] using hne.symm)]
    next hm =>
      obtain ⟨hh, hr, hlow⟩ := hkept { s with rate := s.pendingRate.getD s.rate, pendingRate := none }
      intro _
      rw [hh, hr, marksOwed_chooseFrame, marksOwed_chooseFrame]
      simp only [hm, beq_self_eq_true, if_true] at hswitch
      simp only [hm] at hreset
      refine ⟨?_, by simpa using hreset⟩
      have : (if s.pendingRate.isSome = true then 1 else 0) ≤ 1 := by split <;> omega
      change List.countP _ s.filled = 0
      omega
    next hm =>
      intro _
      obtain ⟨hh, hr, -⟩ := hkept (s.fullReset s.rate true)
      rw [hh, hr, marksOwed_chooseFrame, marksOwed_chooseFrame]
      exact ⟨rfl, rfl⟩

theorem marksKept_powerUp (s : State) : s.powerUp.MarksKept := by
  cases h : s.resetLow with
  | false => rw [powerUp_high h]; exact fun _ => ⟨rfl, rfl⟩
  | true => rw [powerUp_low h]; exact fun _ => ⟨rfl, rfl⟩

theorem marksKept_linkLaw : LinkLaw State.MarksKept where
  link _ := Iff.rfl
  pending _ _ h := h
  settled u t h hu := by
    obtain ⟨-, -, hh, hr, hl⟩ := h.link_kept
    exact marksKept_of_counts hu hl hh hr fun m _ => by rw [State.marksOwed, h.owed]; rfl
  takeFrame s r hs := marksKept_takeFrame hs r
  answered s r owner ho hr hs := marksKept_answered ho hr hs
  endFrame s hl hs := marksKept_endFrame hl hs
  powerUp := marksKept_powerUp
  assertReset s _ h := by cases h

/-- Settles O54: the law looks at the link side alone, and every operation of the link keeps it. -/
theorem stepKeepsTheReplyMarks : Obligations.StepKeepsTheReplyMarks :=
  fun _ _ hs h => marksKept_linkLaw.step hs h

/-! ### The frame in progress and the sending order -/

/-- From `s` to `t` a frame in progress goes on, and replies join behind those owed. -/
def State.SendsOn (s t : State) : Prop :=
  (s.transmitter ≠ .idle → frameSending t.transmitter = frameSending s.transmitter) ∧
    ∃ l, t.owed.map Reply.frame = s.owed.map Reply.frame ++ l

theorem frameSending_eq_none_iff (t : Transmitter) : frameSending t = none ↔ t = .idle := by
  cases t <;> simp [frameSending]

theorem State.SendsOn.refl (s : State) : s.SendsOn s :=
  ⟨fun _ => rfl, [], (List.append_nil _).symm⟩

theorem State.SendsOn.trans {s t u : State} (h : s.SendsOn t) (h' : t.SendsOn u) : s.SendsOn u := by
  obtain ⟨hframe, l, hl⟩ := h
  obtain ⟨hframe', l', hl'⟩ := h'
  refine ⟨fun hn => ?_, l ++ l', by rw [hl', hl, List.append_assoc]⟩
  refine (hframe' fun hi => hn ?_).trans (hframe hn)
  rw [← frameSending_eq_none_iff, ← hframe hn, hi]
  rfl

theorem State.SendsOn.of_append {s t : State} {l : List Reply} (ht : t.transmitter = s.transmitter)
    (ho : t.owed = s.owed ++ l) : s.SendsOn t :=
  ⟨fun _ => by rw [ht], l.map Reply.frame, by rw [ho, List.map_append]⟩

theorem State.SendsOn.of_link {s t : State} (h : t.link = s.link) : s.SendsOn t :=
  .of_append (l := []) (congrArg State.transmitter h :) ((congrArg State.owed h :).trans (List.append_nil _).symm)

theorem sendsOn_settled {u t : State} (h : Settled u t) : u.SendsOn t :=
  ⟨fun hn => by rw [h.transmitter hn], [], by rw [h.owed, List.append_nil]⟩

theorem sendsOn_takeFrame (s : State) (r : Request) : s.SendsOn (s.takeFrame r) := by
  obtain ⟨l, -, ho, ht⟩ := takeFrame_owed s r
  exact .of_append ht ho

theorem sendsOn_placeReply (s : State) (kind tag : Byte) (a : Answer) : s.SendsOn (s.placeReply kind tag a) :=
  .of_append rfl (owed_placeReply s kind tag a)

/-- Replies that lose the switch point's mark keep their frames. -/
theorem sendsOn_dropSwitchPoint (s : State) : s.SendsOn s.dropSwitchPoint := by
  refine ⟨fun _ => ?_, [], ?_⟩
  · unfold State.dropSwitchPoint
    cases s.transmitter <;> rfl
  · rw [owed_dropSwitchPoint, List.map_map, List.append_nil]
    rfl

theorem Owner.sendsOn {owner : State → State × Answer} (ho : Owner owner) (s : State) : s.SendsOn (owner s).1 := by
  rcases ho.cases s with (⟨code, -, h⟩ | ⟨u, fields, h, hu⟩) | ⟨fields, h⟩ | h | ⟨mask, announced, fields, h⟩ |
    ⟨rate, fields, h⟩
  · rw [h]; exact .refl s
  · rw [h]; exact .of_link hu
  · rw [h]; exact .of_append (l := []) rfl (List.append_nil _).symm
  · rw [h]; exact .of_append (l := []) rfl (List.append_nil _).symm
  · rw [h]; exact .of_append (l := []) rfl (List.append_nil _).symm
  · rw [h]; exact (sendsOn_dropSwitchPoint s).trans (.of_append (l := []) rfl (List.append_nil _).symm)

theorem sendsOn_present (s : State) (r : Request) : s.SendsOn (s.present r) := by
  unfold State.present
  split
  · exact .refl s
  · exact sendsOn_takeFrame s r

theorem sendsOn_handle {owner : State → State × Answer} (ho : Owner owner) (s : State) (r : Request) :
    s.SendsOn (s.handle r owner) := by
  rcases handle_cases s r owner with h | ⟨-, -, h⟩
  · rw [h]; exact .refl s
  · rw [h]
    have htaking : s.SendsOn s.taking := .of_append (l := []) rfl (List.append_nil _).symm
    exact (htaking.trans (ho.sendsOn _)).trans (sendsOn_placeReply _ _ _ _)

theorem sendsOn_byteEffect (s : State) (x : ByteEffect) : s.SendsOn (s.byteEffect x) := by
  cases x with
  | good r => exact sendsOn_takeFrame s r
  | _ => exact .of_link rfl

theorem sendsOn_takeByte (s : State) (v : Byte) : s.SendsOn (s.takeByte v) := by
  have hreceiver : s.SendsOn { s with receiver := (s.receiver.take v).1 } := .of_link rfl
  exact hreceiver.trans (sendsOn_byteEffect _ _)

theorem sendsOn_act {s t : State} {f : State → State} (hf : s.SendsOn (f s)) (h : act s f = .next t) : s.SendsOn t := by
  rcases act_next h with ⟨-, rfl⟩ | ⟨-, rfl⟩
  · exact .refl _
  · exact hf.trans (sendsOn_settled (settle_settled _))

/-- Settles O10: a request places its reply behind those owed, a byte received at most a re-send or NO_ROOM, and the device
none; settling ends no frame. -/
theorem frameInProgressGoesOn : Obligations.FrameInProgressGoesOn := by
  intro c s t hsent hpower hassert hrelease h
  rcases exec_cases (by simp [Resets, hpower, hassert, hrelease]) h with
    ⟨r, owner, -, ho, he⟩ | ⟨v, he⟩ | rfl | ⟨f, hf, he⟩
  · exact sendsOn_act ((sendsOn_present s r).trans (sendsOn_handle ho _ r)) (he ▸ h)
  · exact sendsOn_act (sendsOn_takeByte s v) (he ▸ h)
  · exact absurd rfl hsent
  · exact sendsOn_act (.of_link (hf.link s)) (he ▸ h)

end Sys2Proof.Machine
end

section
/-! SUPPORT. Refusals: an owner that refuses changes nothing, so neither does the command but for the sending side (R163). -/

namespace Sys2Proof.Machine

/-- What settling may change of a state. -/
theorem Settled.frame {u t : State} (h : Settled u t) :
    t = { u with filled := t.filled, transmitter := t.transmitter, announced := t.announced, freeIndex := t.freeIndex } := by
  rcases h with ⟨ht, -⟩ | ⟨ht, -, -⟩ | ⟨r, rest, -, -, -, ht⟩
  · rw [ht]
  · generalize t.freeIndex = n at ht
    rw [ht]
  · generalize t.freeIndex = n at ht
    rw [ht]

theorem present_ready {s : State} {r : Request} (hs : s.ready r) : s.present r = s := by
  obtain ⟨-, -, hi⟩ := hs
  rw [State.present, if_pos hi]

theorem handle_ready {s : State} {r : Request} (hs : s.ready r) (owner : State → State × Answer) :
    s.handle r owner = (owner s.taking).1.placeReply r.kind r.tag (owner s.taking).2 := by
  obtain ⟨-, hr, hi⟩ := hs
  rw [State.handle, if_pos ⟨hr, hi⟩]
  rfl

/-- Settles O15: the reply placed last is the owner's, its code is its first byte, and an owner that refuses changes
nothing. -/
theorem refusedRequestsChangeNothing : Obligations.RefusedRequestsChangeNothing := by
  intro c r s t hr hs h l p hl hp
  obtain ⟨owner, ho, he⟩ := exec_request_next hr h
  rw [he, act_high hs.1, present_ready hs, handle_ready hs] at h
  obtain rfl := Host.Outcome.next.inj h
  have hset := settle_settled ((owner s.taking).1.placeReply r.kind r.tag (owner s.taking).2)
  rw [hset.owed, owed_placeReply] at hl
  obtain ⟨-, rfl⟩ := List.append_inj' hl rfl |>.imp_right List.singleton_inj.mp
  have hcode : (owner s.taking).2.code ≠ .ok := by
    intro hok
    exact hp (by simp [replyFrame, hok, ReplyCode.value])
  obtain ⟨code, -, hrefused⟩ := ho.refused hcode
  rw [hrefused] at hset ⊢
  obtain ⟨-, hcache, -⟩ := hset.link_kept
  refine hset.frame.trans ?_
  rw [hcache]
  rfl

end Sys2Proof.Machine
end

section
/-! SUPPORT. Attention: what each flag is raised by, when a notice is pending, what it says, and the choice of a frame at the
end of one. -/

namespace Sys2Proof.Machine

/-! ### The change sets and what raises their flags -/

theorem changedPolls_eq (s : State) :
    changedPolls s = (List.finRange 16).filter fun i => (s.poll i).any Poll.changed := by
  refine List.filter_congr fun i _ => ?_
  show _ = (s.polls[i]).any Poll.changed
  cases s.polls[i] <;> rfl

theorem changedTargets_eq (s : State) :
    changedTargets s = (List.finRange 64).filter fun h => (s.entry h).any Entry.changed := by
  refine List.filter_congr fun h _ => ?_
  show _ = (s.directory[h]).any Entry.changed
  cases s.directory[h] <;> rfl

theorem filter_any_ne_nil {α : Type} {n : Nat} (v : Fin n → Option α) (p : α → Bool) :
    (List.finRange n).filter (fun i => (v i).any p) ≠ [] ↔ ∃ i x, v i = some x ∧ p x = true := by
  simp [List.filter_eq_nil_iff, Option.any_eq_true]

theorem changedPolls_ne_nil (s : State) : changedPolls s ≠ [] ↔ ∃ i p, s.poll i = some p ∧ p.changed = true := by
  rw [changedPolls_eq]
  exact filter_any_ne_nil s.poll Poll.changed

theorem changedTargets_ne_nil (s : State) : changedTargets s ≠ [] ↔ ∃ h e, s.entry h = some e ∧ e.changed = true := by
  rw [changedTargets_eq]
  exact filter_any_ne_nil s.entry Entry.changed

theorem eventBuses_ne_nil (s : State) :
    eventBuses s ≠ [] ↔
      ∃ b, (s.bus b).pendingCleared + (s.bus b).pendingFaulted + (s.bus b).pendingRecovered ≠ 0 := by
  simp only [eventBuses, ne_eq, List.filter_eq_nil_iff, List.mem_finRange, true_implies, not_forall,
    Decidable.not_not, Bus.hasEvents, bne_iff_ne]
  rfl

/-! ### The notice -/

/-- A set is not contained in another exactly when one of its flags is missing there. -/
theorem FlagSet.subset_eq_false_iff (a b : FlagSet) :
    a.subset b = false ↔
      (a.restarted = true ∧ b.restarted = false) ∨ (a.results = true ∧ b.results = false) ∨
      (a.inbound = true ∧ b.inbound = false) ∨ (a.polls = true ∧ b.polls = false) ∨
      (a.targets = true ∧ b.targets = false) ∨ (a.buses = true ∧ b.buses = false) := by
  simp only [FlagSet.subset, Bool.and_eq_false_iff, Bool.or_eq_false_iff, Bool.not_eq_false', or_assoc]

theorem noticePending_iff (s : State) :
    noticePending s = true ↔
      (s.restarted = true ∧ s.announced.restarted = false) ∨
      (s.store ≠ [] ∧ s.mask.results = true ∧ s.announced.results = false) ∨
      (s.inbound ≠ [] ∧ s.mask.inbound = true ∧ s.announced.inbound = false) ∨
      (changedPolls s ≠ [] ∧ s.mask.polls = true ∧ s.announced.polls = false) ∨
      (changedTargets s ≠ [] ∧ s.mask.targets = true ∧ s.announced.targets = false) ∨
      (eventBuses s ≠ [] ∧ s.mask.buses = true ∧ s.announced.buses = false) := by
  simp only [noticePending, Bool.not_eq_true', FlagSet.subset_eq_false_iff, eligible, raised, FlagSet.inter,
    Bool.and_eq_true, Bool.not_eq_true', List.isEmpty_eq_false_iff, and_assoc, true_and, ne_eq]

theorem FlagSet.toByte_eq (f : FlagSet) :
    f.toByte = byteOf (bit f.restarted + 2 * bit f.results + 4 * bit f.inbound + 8 * bit f.polls + 16 * bit f.targets
      + 32 * bit f.buses) := by
  simp only [FlagSet.toByte, bit, mul_ite, mul_one, mul_zero]

theorem length_eventBuses (s : State) :
    (eventBuses s).length = allBuses.countP fun b =>
      (s.bus b).pendingCleared + (s.bus b).pendingFaulted + (s.bus b).pendingRecovered != 0 :=
  List.countP_eq_length_filter.symm

/-- Settles O9: each flag is raised by its source not being empty, and the counts are the lengths of the sources. -/
theorem noticeTellsEligibleFlagsAndCounts : Obligations.NoticeTellsEligibleFlagsAndCounts := by
  intro s
  refine ⟨?_, ?_⟩
  · rw [noticePending_iff, changedPolls_ne_nil, changedTargets_ne_nil, eventBuses_ne_nil]
  · rw [noticeFrame, attentionCounts, FlagSet.toByte_eq, length_eventBuses, changedPolls_eq, changedTargets_eq,
      ← List.countP_eq_length_filter, ← List.countP_eq_length_filter]
    rfl

/-! ### The end of a frame -/

theorem FlagSet.inter_self_of_subset {a b : FlagSet} (h : a.subset b = true) : a.inter b = a := by
  cases a
  simp only [FlagSet.subset, Bool.and_eq_true, Bool.or_eq_true, Bool.not_eq_true'] at h
  obtain ⟨⟨⟨⟨⟨h1, h2⟩, h3⟩, h4⟩, h5⟩, h6⟩ := h
  simp only [FlagSet.inter, FlagSet.mk.injEq, Bool.and_eq_left_iff_imp]
  exact ⟨by grind, by grind, by grind, by grind, by grind, by grind⟩

/-- A frame that has just been chosen is not chosen again: settling takes only lowered flags from the announced set. -/
theorem settle_of_sending {u : State} (h : u.transmitter ≠ .idle) :
    u.settle = { u with announced := u.stillAnnounced } := by
  rcases settle_settled u with ⟨ht, -⟩ | ⟨-, hi, -⟩ | ⟨r, rest, -, hi, -⟩
  · exact ht
  · exact absurd hi h
  · exact absurd hi h

theorem settle_composeNotice (u : State) : u.composeNotice.settle = u.composeNotice := by
  rw [settle_of_sending (by simp [State.composeNotice])]
  have h : u.composeNotice.stillAnnounced = eligible u :=
    FlagSet.inter_self_of_subset (eligible_subset_raised u)
  rw [h]
  rfl

/-- The transmitter that has chosen a reply, or has none to choose, with no notice pending, settles as it is. -/
theorem settle_startReply {u : State} (hn : noticePending u = false) :
    u.startReply.settle = { u.startReply with announced := u.stillAnnounced } := by
  cases hf : u.filled with
  | cons r rest =>
    rw [startReply_cons u hf, settle_of_sending (by simp)]
    rfl
  | nil =>
    have hs : u.startReply = { u with transmitter := .idle } := by simp [State.startReply, hf]
    have hp : noticePending ({ u with transmitter := .idle } : State) = false := hn
    rw [hs]
    rcases settle_settled ({ u with transmitter := .idle } : State) with ⟨ht, -⟩ | ⟨-, -, hp'⟩ | ⟨r, rest, hf', -⟩
    · exact ht
    · rw [hp] at hp'
      cases hp'
    · have hc : u.filled = r :: rest := hf'
      rw [hf] at hc
      cases hc

/-- The frame that goes next (R155): the notice that is pending, the filled slot first in the sending order, or none. -/
theorem settle_chooseFrame (u : State) :
    (noticePending u = true → u.chooseFrame.settle =
      { u with transmitter := .notice (noticeFrame u), announced := eligible u }) ∧
    (noticePending u = false →
      (∀ r rest, u.filled = r :: rest → u.chooseFrame.settle =
        { u with transmitter := .reply r, filled := rest, announced := u.stillAnnounced }) ∧
      (u.filled = [] → u.chooseFrame.settle = { u with transmitter := .idle, announced := u.stillAnnounced })) := by
  refine ⟨fun hn => ?_, fun hn => ⟨fun r rest hf => ?_, fun hf => ?_⟩⟩
  · rw [State.chooseFrame, if_pos hn, settle_composeNotice]
    rfl
  · rw [State.chooseFrame, if_neg (by simp [hn]), settle_startReply hn, startReply_cons u hf]
  · rw [State.chooseFrame, if_neg (by simp [hn]), settle_startReply hn]
    simp only [State.startReply, hf]

/-- Settles O8: the end of a frame brings the switch of the rate about and then chooses, and what it chose settles as it
is. -/
theorem frameSentChoosesTheNextFrame : Obligations.FrameSentChoosesTheNextFrame := by
  intro s u hl hi hplain hswitch hreset
  have hend : s.endFrame = u.chooseFrame := by
    unfold State.endFrame
    cases ht : s.transmitter with
    | idle => exact absurd ht hi
    | notice f => rw [hplain (.inl ⟨f, ht⟩)]
    | reply r =>
      obtain ⟨f, m⟩ := r
      cases m with
      | plain => rw [hplain (.inr ⟨f, ht⟩)]
      | switchPoint =>
        obtain ⟨p, hp, rfl⟩ := hswitch f ht
        simp [hp, ht]
      | resetPoint => exact absurd ht (hreset f)
  have hexec : exec .frameSent s = .next u.chooseFrame.settle := by
    rw [← hend]
    exact act_high hl State.endFrame
  obtain ⟨hnotice, hother⟩ := settle_chooseFrame u
  rw [hexec]
  exact ⟨fun hn => congrArg _ (hnotice hn), fun hn =>
    ⟨fun r rest hf => congrArg _ ((hother hn).1 r rest hf), fun hf => congrArg _ ((hother hn).2 hf)⟩⟩

/-! ### Full resets -/

theorem afterReset_fullReset (s : State) (rate : LinkRate) (sensed : Bool) :
    AfterReset rate s (s.fullReset rate sensed) := by
  refine ⟨rfl, rfl, rfl, rfl, rfl, rfl, rfl, rfl, rfl, rfl, rfl, rfl, rfl, rfl, rfl, rfl, fun h => ?_, fun i => ?_,
    fun b => ?_⟩
  · simp [State.fullReset, State.resetValues, State.entry]
  · simp [State.fullReset, State.resetValues, State.poll]
  · rw [State.bus_fullReset]
    rfl

theorem changedPolls_fullReset (s : State) (rate : LinkRate) (sensed : Bool) :
    changedPolls (s.fullReset rate sensed) = [] := by
  by_contra h
  obtain ⟨i, p, hp, -⟩ := (changedPolls_ne_nil _).mp h
  simp [State.fullReset, State.resetValues, State.poll] at hp

theorem changedTargets_fullReset (s : State) (rate : LinkRate) (sensed : Bool) :
    changedTargets (s.fullReset rate sensed) = [] := by
  by_contra h
  obtain ⟨k, e, he, -⟩ := (changedTargets_ne_nil _).mp h
  simp [State.fullReset, State.resetValues, State.entry] at he

theorem eventBuses_fullReset (s : State) (rate : LinkRate) (sensed : Bool) :
    eventBuses (s.fullReset rate sensed) = [] := by
  by_contra h
  obtain ⟨b, hb⟩ := (eventBuses_ne_nil _).mp h
  rw [State.bus_fullReset] at hb
  exact hb rfl

theorem restartAnnounced_fullReset (s : State) (rate : LinkRate) (sensed : Bool) :
    RestartAnnounced (s.fullReset rate sensed).composeNotice := by
  have he : eligible (s.fullReset rate sensed) = { FlagSet.empty with restarted := true } := by
    rw [eligible, raised, changedPolls_fullReset, changedTargets_fullReset, eventBuses_fullReset]
    rfl
  refine ⟨?_, he⟩
  show Transmitter.notice (noticeFrame (s.fullReset rate sensed)) = _
  rw [noticeFrame, attentionCounts, he, changedPolls_fullReset, changedTargets_fullReset, eventBuses_fullReset]
  rfl

/-- At a reset point the level of a line that the hub left alone is the one last sensed (log entry 11). -/
theorem levelAfterReset_of_released {s : State} {b : BusId} (hc : (s.bus b).clockOut = .released)
    (hd : (s.bus b).dataOut = .released) (hdrive : (s.bus b).engine.value ≠ 0x03#8)
    (hclear : (s.bus b).engine.value ≠ 0x05#8) (hanswer : ∀ r, (s.bus b).engine = .answering r → r.byteGiven = none) :
    s.levelAfterReset true b = (s.bus b).monitor.bothHigh := by
  have hh : (s.bus b).holdsLines = false := by
    unfold Bus.holdsLines
    rw [hc, hd]
    cases he : (s.bus b).engine with
    | driving p w => exact absurd (by rw [he]; rfl) hdrive
    | clearing kept n stage => exact absurd (by rw [he]; rfl) hclear
    | answering r =>
      have hg := hanswer r he
      cases hk : r.kind <;> cases hcl : r.closed <;> simp_all [Reception.byteGiven]
    | off => rfl
    | idle w => rfl
    | occupied h => rfl
    | faulted => rfl
  simp [State.levelAfterReset, hh]

theorem bus_assertReset (s : State) (b : BusId) :
    s.assertReset.bus b =
      { s.bus b with clockOut := .released, dataOut := .released, sending := none, bitsPlaced := 0 } := by
  simp [State.assertReset, State.bus]

/-- Settles O4: every reset of the whole hub is a full reset, after which the notice of RESTARTED is chosen unless RESET# is
low. -/
theorem fullResetsLeaveTheirValues : Obligations.FullResetsLeaveTheirValues := by
  intro s
  refine ⟨⟨s.powerUp, rfl, ?_⟩, fun hl => ⟨⟨({ s with resetLow := false } : State).powerUp, ?_, ?_⟩, ?_⟩,
    fun hl => ⟨⟨s.assertReset, ?_, rfl, bus_assertReset s⟩, ?_, fun r ht hm => ?_⟩⟩
  · cases hl : s.resetLow with
    | false =>
      rw [powerUp_high hl]
      exact ⟨afterReset_fullReset s _ _, hl, fun _ => restartAnnounced_fullReset s _ _, fun h => (by cases h)⟩
    | true =>
      rw [powerUp_low hl]
      exact ⟨afterReset_fullReset s _ _, hl, fun h => (by cases h), fun _ => ⟨rfl, rfl⟩⟩
  · simp [exec, execResetPinRelease, hl]
  · rw [powerUp_high (s := { s with resetLow := false }) rfl]
    exact ⟨afterReset_fullReset { s with resetLow := false } _ _, rfl, restartAnnounced_fullReset _ _ _⟩
  · simp [exec, execResetPinAssert, hl]
  · simp [exec, execResetPinAssert, hl]
  · simp [exec, execResetPinRelease, hl]
  · have he : s.endFrame = (s.fullReset s.rate true).composeNotice := by
      simp only [State.endFrame, ht, hm]
      exact chooseFrame_fullReset s s.rate true
    refine ⟨(s.fullReset s.rate true).composeNotice, ?_, afterReset_fullReset s _ _, hl,
      restartAnnounced_fullReset s _ _, fun b hc hd hdrive hclear hanswer => ?_⟩
    · exact (act_high hl State.endFrame).trans (congrArg _ (by rw [he, settle_composeNotice]))
    · rw [← levelAfterReset_of_released hc hd hdrive hclear hanswer]
      show ((s.fullReset s.rate true).bus b).monitor.bothHigh = _
      rw [State.bus_fullReset]
      rfl

end Sys2Proof.Machine
end

section
/-! SUPPORT. The receiver by its state, and the tag check and room check of a good frame, whether it came byte by byte or
whole. -/

namespace Sys2Proof.Machine

/-! ### The receiver -/

section Receiver

variable {r : Receiver} (v : Byte)

theorem take_hunt (hst : r.state = .hunt) :
    r.take v = (if v = 0xA9#8 then freshReceiver .sync else freshReceiver .hunt, .nothing) := by
  rw [Receiver.take, hst]
  dsimp only
  split <;> rfl

theorem take_sync (hst : r.state = .sync) :
    r.take v = (if v = 0x5E#8 then freshReceiver .header else if v = 0xA9#8 then freshReceiver .sync
      else freshReceiver .hunt, .nothing) := by
  rw [Receiver.take, hst]
  dsimp only
  split
  · rfl
  · split <;> rfl

theorem take_kind (hst : r.state = .header) (hk : r.kind = none) (hv : v.toNat < 128) :
    r.take v = ({ r with kind := some v, running := checkByte r.running v, gapTimer := 0 }, .nothing) := by
  rw [Receiver.take, hst, hk]
  exact if_pos hv

theorem take_kind_refused (hst : r.state = .header) (hk : r.kind = none) (hv : 128 ≤ v.toNat) :
    r.take v = (freshReceiver .hunt, .discardKind) := by
  rw [Receiver.take, hst, hk]
  exact if_neg (Nat.not_lt.mpr hv)

theorem take_tag (hst : r.state = .header) (hk : r.kind ≠ none) (ht : r.tag = none) :
    r.take v = ({ r with tag := some v, running := checkByte r.running v, gapTimer := 0 }, .nothing) := by
  obtain ⟨k, hk⟩ := Option.ne_none_iff_exists'.mp hk
  rw [Receiver.take, hst, hk, ht]

theorem take_length (hst : r.state = .header) (hk : r.kind ≠ none) (ht : r.tag ≠ none) (hv : v.toNat ≤ 240) :
    r.take v = ({ r with length := v.toNat, running := checkByte r.running v, gapTimer := 0
                         state := if v.toNat = 0 then .check else .body }, .nothing) := by
  obtain ⟨k, hk⟩ := Option.ne_none_iff_exists'.mp hk
  obtain ⟨t, ht⟩ := Option.ne_none_iff_exists'.mp ht
  rw [Receiver.take, hst, hk, ht]
  exact if_pos hv

theorem take_length_refused (hst : r.state = .header) (hk : r.kind ≠ none) (ht : r.tag ≠ none) (hv : 241 ≤ v.toNat) :
    r.take v = (freshReceiver .hunt, .discardLength) := by
  obtain ⟨k, hk⟩ := Option.ne_none_iff_exists'.mp hk
  obtain ⟨t, ht⟩ := Option.ne_none_iff_exists'.mp ht
  rw [Receiver.take, hst, hk, ht]
  exact if_neg (Nat.not_le.mpr hv)

theorem take_body (hst : r.state = .body) :
    r.take v = ({ r with body := r.body ++ [v], running := checkByte r.running v, gapTimer := 0
                         state := if r.body.length + 1 < r.length then .body else .check }, .nothing) := by
  rw [Receiver.take, hst]

theorem take_checkHigh (hst : r.state = .check) (hh : r.checkHigh = none) :
    r.take v = ({ r with checkHigh := some v, gapTimer := 0 }, .nothing) := by
  rw [Receiver.take, hst, hh]

variable {high : Byte}

theorem take_checkLow_wrong (hst : r.state = .check) (hh : r.checkHigh = some high)
    (hn : nat16 high v ≠ r.running.toNat) : r.take v = (freshReceiver .hunt, .discardCheck) := by
  rw [Receiver.take, hst, hh]
  exact congrArg (Prod.mk _) (if_neg hn)

theorem take_checkLow_right (hst : r.state = .check) (hh : r.checkHigh = some high)
    (hn : nat16 high v = r.running.toNat) {q : Request} (hk : r.kind = some q.kind) (ht : r.tag = some q.tag)
    (hb : r.body = q.body) : r.take v = (freshReceiver .hunt, .good q) := by
  rw [Receiver.take, hst, hh]
  refine congrArg (Prod.mk _) ((if_pos hn).trans ?_)
  rw [hk, ht, hb]
  rfl

end Receiver

section

theorem leads_byteReceived {s u : State} {v : Byte} {r : Receiver} {x : ByteEffect} (hl : s.resetLow = false)
    (ht : s.receiver.take v = (r, x)) (hu : ({ s with receiver := r } : State).byteEffect x = u) :
    Leads (.byteReceived v) s u := by
  refine leads_of_act (f := State.takeByte v) rfl hl ?_
  rw [State.takeByte, ht, hu]

theorem gapOut_hunt {s : State} (h : s.receiver.state = .hunt) : s.gapOut = s := by
  simp [State.gapOut, h]

theorem gapOut_assembling {s : State} (h : s.receiver.state ≠ .hunt) :
    s.gapOut = { s.pass ((21 - s.receiver.gapTimer) * 1000) with
      receiver := freshReceiver .hunt, discards := { s.discards with gap := rise 65535 s.discards.gap } } := by
  simp only [State.gapOut, h, if_false]
  rfl

theorem leads_gapTimerExpiry {s u : State} (hl : s.resetLow = false) (hu : s.gapOut = u) : Leads .gapTimerExpiry s u :=
  leads_of_act (f := State.gapOut) rfl hl hu

/-- Settles O5: each state of the receiver with each byte, as `Receiver.take` has it. -/
theorem receiverActsByItsState : Obligations.ReceiverActsByItsState := by
  intro s v hl
  refine ⟨fun hst => ⟨?_, leads_gapTimerExpiry hl (gapOut_hunt hst)⟩, fun hst => ?_,
    fun hst hk => ⟨fun hv => ?_, fun hv => ?_⟩, fun hst hk ht => ?_, fun hst hk ht => ⟨fun hv => ?_, fun hv => ?_⟩,
    fun hst => ?_, fun hst hh => ?_, fun high hst hh hn => ?_, fun hst => leads_gapTimerExpiry hl (gapOut_assembling hst)⟩
  · exact leads_byteReceived hl (take_hunt v hst) rfl
  · exact leads_byteReceived hl (take_sync v hst) rfl
  · exact leads_byteReceived hl (take_kind v hst hk hv) rfl
  · exact leads_byteReceived hl (take_kind_refused v hst hk hv) rfl
  · exact leads_byteReceived hl (take_tag v hst hk ht) rfl
  · exact leads_byteReceived hl (take_length v hst hk ht hv) rfl
  · exact leads_byteReceived hl (take_length_refused v hst hk ht hv) rfl
  · exact leads_byteReceived hl (take_body v hst) rfl
  · exact leads_byteReceived hl (take_checkHigh v hst hh) rfl
  · exact leads_byteReceived hl (take_checkLow_wrong v hst hh hn) rfl

/-! ### A frame byte by byte -/

theorem takeAll_append (r : Receiver) (bs cs : List Byte) :
    r.takeAll (bs ++ cs) = (((r.takeAll bs).1.takeAll cs).1, (r.takeAll bs).2 ++ ((r.takeAll bs).1.takeAll cs).2) := by
  induction bs generalizing r with
  | nil => rfl
  | cons b bs ih => simp only [List.cons_append, Receiver.takeAll, ih]

theorem takeAll_cons {r r' : Receiver} {b : Byte} {x : ByteEffect} (h : r.take b = (r', x)) (bs : List Byte) :
    r.takeAll (b :: bs) = ((r'.takeAll bs).1, x :: (r'.takeAll bs).2) := by
  rw [Receiver.takeAll, h]

/-- The receiver with the first bytes of the body gathered, in BODY while some are missing. -/
def Receiver.gathering (r : Receiver) (n : Nat) : Receiver :=
  { r with state := if n = 0 then .check else .body }

/-- The bytes of a body are gathered, and the last of them brings the receiver to CHECK (Table 8-3). -/
theorem takeAll_body (bs : List Byte) : ∀ r : Receiver, r.length = r.body.length + bs.length → r.gapTimer = 0 →
    (r.gathering bs.length).takeAll bs =
      ({ r with state := .check, body := r.body ++ bs, running := bs.foldl checkByte r.running },
       List.replicate bs.length .nothing) := by
  induction bs with
  | nil =>
    intro r _ _
    simp [Receiver.gathering, Receiver.takeAll]
  | cons b bs ih =>
    intro r hlen hgap
    have htake : (r.gathering (b :: bs).length).take b =
        (({ r with body := r.body ++ [b], running := checkByte r.running b } : Receiver).gathering bs.length, .nothing) := by
      rw [take_body b (by simp [Receiver.gathering])]
      simp only [Receiver.gathering, hlen, hgap, List.length_cons]
      cases bs <;> simp
    have hrest := ih { r with body := r.body ++ [b], running := checkByte r.running b }
      (by simp only [List.length_append, List.length_cons, List.length_nil] at hlen ⊢; omega) hgap
    rw [takeAll_cons htake, hrest]
    simp [List.replicate_succ]

theorem toNat_byteOf_length {l : List Byte} (h : l.length ≤ 240) : (byteOf l.length).toNat = l.length :=
  byteOf_toNat (by omega)

/-- The receiver once the header of the request's frame has come. -/
def headerTaken (r : Request) : Receiver :=
  { freshReceiver .check with
    kind := some r.kind, tag := some r.tag, length := r.body.length
    running := checkOf [r.kind, r.tag, byteOf r.body.length] }

/-- Sync and header: nothing is brought about, and BODY, or CHECK for an empty body, follows. -/
theorem takeAll_header {r : Request} (hk : r.kind.toNat < 128) (hb : r.body.length ≤ 240) :
    (freshReceiver .hunt).takeAll [0xA9#8, 0x5E#8, r.kind, r.tag, byteOf r.body.length] =
      ((headerTaken r).gathering r.body.length, List.replicate 5 .nothing) := by
  have hn := toNat_byteOf_length hb
  rw [takeAll_cons (take_hunt _ rfl), if_pos rfl, takeAll_cons (take_sync _ rfl), if_pos rfl,
    takeAll_cons (take_kind _ rfl rfl hk), takeAll_cons (take_tag _ rfl (by simp) rfl),
    takeAll_cons (take_length _ rfl (by simp) (by simp) (by omega))]
  simp only [Receiver.takeAll, hn]
  rfl

/-- The two bytes of the check: the second hands on the frame. -/
theorem takeAll_check {r : Receiver} {q : Request} (hst : r.state = .check) (hh : r.checkHigh = none)
    (hk : r.kind = some q.kind) (ht : r.tag = some q.tag) (hb : r.body = q.body) :
    r.takeAll (bytes16 r.running.toNat) = (freshReceiver .hunt, [.nothing, .good q]) := by
  have hn : nat16 (byteOf (r.running.toNat / 256)) (byteOf r.running.toNat) = r.running.toNat :=
    nat16_byteOf r.running.isLt
  have hlow := take_checkLow_right (r := { r with checkHigh := some (byteOf (r.running.toNat / 256)), gapTimer := 0 }) _
    hst rfl hn hk ht hb
  rw [bytes16, takeAll_cons (take_checkHigh _ hst hh), takeAll_cons hlow]
  rfl

/-- Settles O7: the frame in its three parts, header, body (by induction on its bytes) and check. -/
theorem framesReadBack : Obligations.FramesReadBack := by
  intro r hk hb
  have hwire : Frame.wire { kind := r.kind, tag := r.tag, body := r.body } =
      [0xA9#8, 0x5E#8, r.kind, r.tag, byteOf r.body.length] ++ (r.body ++
        bytes16 (r.body.foldl checkByte (headerTaken r).running).toNat) := by
    simp only [Frame.wire, Frame.covered, checkOf, headerTaken, List.foldl_cons, List.foldl_nil, List.cons_append,
      List.nil_append]
  have hbody := takeAll_body r.body (headerTaken r) (by simp [headerTaken, freshReceiver]) rfl
  rw [hwire, takeAll_append, takeAll_header hk hb, takeAll_append, hbody]
  have hcheck := takeAll_check (r := { headerTaken r with
      state := .check, body := (headerTaken r).body ++ r.body
      running := r.body.foldl checkByte (headerTaken r).running }) (q := r) rfl rfl rfl rfl rfl
  rw [hcheck]
  refine congrArg (Prod.mk _) ?_
  dsimp only
  have hsplit : List.replicate (6 + r.body.length) ByteEffect.nothing =
      List.replicate 5 .nothing ++ (List.replicate r.body.length .nothing ++ [.nothing]) := by
    rw [← List.replicate_succ', List.replicate_append_replicate]
    congr 1
    omega
  rw [hsplit]
  simp

/-! ### The tag check and the room check -/

section TakeFrame
variable {s : State} {r : Request}

theorem takeFrame_tagZero (h : r.tag = 0x00#8) : s.takeFrame r = s.roomCheck r := if_pos h

theorem takeFrame_duplicate (h : r.tag ≠ 0x00#8) (hd : ∃ q ∈ s.intake, q.tag = r.tag) :
    s.takeFrame r = { s with discards := { s.discards with duplicate := rise 65535 s.discards.duplicate } } := by
  rw [State.takeFrame, if_neg h, if_pos (by simpa using hd)]
  rfl

theorem takeFrame_uncached (h : r.tag ≠ 0x00#8) (hi : ∀ q ∈ s.intake, q.tag ≠ r.tag) (hc : ∀ c ∈ s.cache, c.tag ≠ r.tag) :
    s.takeFrame r = s.roomCheck r := by
  have hf : (s.cache.find? fun c => c.tag == r.tag) = none := by simpa using hc
  rw [State.takeFrame, if_neg h, if_neg (by simpa using hi), hf]

variable {c : CacheEntry}

theorem takeFrame_resend (h : r.tag ≠ 0x00#8) (hi : ∀ q ∈ s.intake, q.tag ≠ r.tag)
    (hf : (s.cache.find? fun c => c.tag == r.tag) = some c) (hk : c.kind = r.kind)
    (hroom : s.intake.length + s.owed.length < 8) :
    s.takeFrame r = { s with filled := s.filled ++ [{ frame := c.frame, mark := .plain }] } := by
  rw [State.takeFrame, if_neg h, if_neg (by simpa using hi), hf]
  exact (if_pos hk).trans (if_neg (s.freeSlots_ne_zero_iff.mpr hroom))

theorem takeFrame_resend_dropped (h : r.tag ≠ 0x00#8) (hi : ∀ q ∈ s.intake, q.tag ≠ r.tag)
    (hf : (s.cache.find? fun c => c.tag == r.tag) = some c) (hk : c.kind = r.kind)
    (hfull : 8 ≤ s.intake.length + s.owed.length) : s.takeFrame r = s := by
  have h0 : s.freeSlots = 0 := by
    by_contra h0
    exact absurd (s.freeSlots_ne_zero_iff.mp h0) (by omega)
  rw [State.takeFrame, if_neg h, if_neg (by simpa using hi), hf]
  exact (if_pos hk).trans (if_pos h0)

theorem takeFrame_cachedOther (h : r.tag ≠ 0x00#8) (hi : ∀ q ∈ s.intake, q.tag ≠ r.tag)
    (hf : (s.cache.find? fun c => c.tag == r.tag) = some c) (hk : c.kind ≠ r.kind) :
    s.takeFrame r = ({ s with cache := s.cache.filter fun c => c.tag != r.tag } : State).roomCheck r := by
  rw [State.takeFrame, if_neg h, if_neg (by simpa using hi), hf]
  exact if_neg hk

theorem roomCheck_full (hfull : 8 ≤ s.intake.length + s.owed.length) : s.roomCheck r = s := by
  have h0 : s.freeSlots = 0 := by
    by_contra h0
    exact absurd (s.freeSlots_ne_zero_iff.mp h0) (by omega)
  exact if_pos h0

theorem roomCheck_taken (hroom : s.intake.length + s.owed.length < 8) (hplace : s.intake.length < 6) :
    s.roomCheck r = { s with intake := s.intake ++ [r] } :=
  (if_neg (s.freeSlots_ne_zero_iff.mpr hroom)).trans (if_pos hplace)

theorem roomCheck_noRoom (hroom : s.intake.length + s.owed.length < 8) (hfull : 6 ≤ s.intake.length) :
    s.roomCheck r = { s with filled := s.filled ++
      [{ frame := { kind := r.kind + 0x80#8, tag := r.tag, body := [0x01#8, 0x00#8] }, mark := .plain }] } :=
  (if_neg (s.freeSlots_ne_zero_iff.mpr hroom)).trans (if_neg (Nat.not_lt.mpr hfull))

end TakeFrame

/-- A command that leads to what the room check makes of the state `v` meets `RoomChecked`. -/
theorem roomChecked_of_leads {c : Instr} {s v : State} {r : Request} (h : Leads c s (v.roomCheck r)) :
    RoomChecked c s v r :=
  ⟨fun hfull => roomCheck_full (r := r) hfull ▸ h, fun hroom =>
    ⟨fun hplace => roomCheck_taken (r := r) hroom hplace ▸ h, fun hfull => roomCheck_noRoom (r := r) hroom hfull ▸ h⟩⟩

/-- Settles O6: the last byte of a good frame leads to what the tag check makes of the state with the receiver in HUNT. -/
theorem goodFramePassesTagAndRoomChecks : Obligations.GoodFramePassesTagAndRoomChecks := by
  intro s high v r hl hst hh hn hk ht hb s₀
  have hleads : Leads (.byteReceived v) s (s₀.takeFrame r) :=
    leads_byteReceived hl (take_checkLow_right v hst hh hn hk ht hb) rfl
  refine ⟨fun h => ?_, fun h hd => ?_, fun h hi hc => ?_, fun h hi c hf =>
    ⟨fun hkind => ⟨fun hroom => ?_, fun hfull => ?_⟩, fun hkind => ?_⟩⟩
  · exact roomChecked_of_leads (takeFrame_tagZero h ▸ hleads)
  · rwa [takeFrame_duplicate (s := s₀) h hd] at hleads
  · exact roomChecked_of_leads (takeFrame_uncached (s := s₀) h hi hc ▸ hleads)
  · rwa [takeFrame_resend (s := s₀) h hi hf hkind hroom] at hleads
  · rwa [takeFrame_resend_dropped (s := s₀) h hi hf hkind hfull] at hleads
  · exact roomChecked_of_leads (takeFrame_cachedOther (s := s₀) h hi hf hkind ▸ hleads)

end

end Sys2Proof.Machine
end

section
/-! SUPPORT. A request that comes as a whole frame, and the refusals every request kind shares. -/

namespace Sys2Proof.Machine

/-! ### A request that comes whole (log entry 3) -/

theorem present_arrived {s : State} {r : Request} (h : s.intake.head? ≠ some r) : s.present r = s.takeFrame r := if_neg h

theorem handle_not_head {s : State} {r : Request} {owner : State → State × Answer} (h : s.intake.head? ≠ some r) :
    s.handle r owner = s := if_neg fun hh => h hh.2

/-- A request command acts by presenting and handling its request. -/
theorem exec_presents {c : Instr} {r : Request} (hr : requestOf c = some r) (hk : c.kindFits = true)
    (hb : r.body.length ≤ 240) :
    ∃ owner, ∀ s, exec c s = act s fun s => (s.present r).handle r owner := by
  obtain ⟨owner, ho⟩ := exec_request hr hk
  exact ⟨owner, fun s => (ho s).trans (request_act hb owner s)⟩

section Arrived
variable {c : Instr} {r : Request} {owner : State → State × Answer} {s v : State}

/-- A frame that the tag check has let pass, in state `v`, is taken and handled when the intake is empty and a slot FREE. -/
theorem exec_arrived_handled (he : ∀ s, exec c s = act s fun s => (s.present r).handle r owner)
    (hl : s.resetLow = false) (hh : s.intake.head? ≠ some r) (ht : s.takeFrame r = v.roomCheck r)
    (hvl : v.resetLow = false) (hi : v.intake = []) (ho : v.owed.length < 8) :
    exec c s = exec c { v with intake := [r] } := by
  have hroom : v.roomCheck r = { v with intake := [r] } := by
    rw [roomCheck_taken (by simpa [hi] using ho) (by simp [hi]), hi]
    rfl
  have hhead : ({ v with intake := [r] } : State).present r = { v with intake := [r] } := if_pos rfl
  rw [he, he, act_high hl, act_high (s := { v with intake := [r] }) hvl, present_arrived hh, ht, hroom, hhead]

/-- A frame that is not handled at once leads to what the checks make of the state. -/
theorem leads_arrived (he : ∀ s, exec c s = act s fun s => (s.present r).handle r owner) (hl : s.resetLow = false)
    (hh : s.intake.head? ≠ some r) {u : State} (ht : s.takeFrame r = u) (hu : u.intake.head? ≠ some r) : Leads c s u := by
  refine leads_of_act (he s) hl ?_
  rw [present_arrived hh, ht, handle_not_head hu]

/-- A frame for the room check that finds requests before it, or no slot FREE, is not handled at once. -/
theorem roomChecked_arrived (he : ∀ s, exec c s = act s fun s => (s.present r).handle r owner)
    (hl : s.resetLow = false) (hh : s.intake.head? ≠ some r) (ht : s.takeFrame r = v.roomCheck r)
    (hv : v.intake.head? ≠ some r) (hn : v.intake ≠ [] ∨ 8 ≤ v.owed.length) : RoomChecked c s v r := by
  refine roomChecked_of_leads (leads_arrived he hl hh ht ?_)
  rcases roomCheck_cases v r with ⟨-, h⟩ | ⟨hfree, -, h⟩ | ⟨-, -, h⟩
  · rwa [h]
  · rw [h]
    have hne : v.intake ≠ [] := hn.resolve_right fun h8 => by
      have := v.freeSlots_ne_zero_iff.mp hfree
      omega
    obtain ⟨q, l, hq⟩ := List.exists_cons_of_ne_nil hne
    simpa [hq] using hv
  · rwa [h]

end Arrived

/-- Settles O14: the tag check's cases, and behind it an empty intake with a slot FREE or the room check. -/
theorem arrivedRequestIsHandled : Obligations.ArrivedRequestIsHandled := by
  intro c r s hr hk hb hl hh checked
  obtain ⟨owner, he⟩ := exec_presents hr hk hb
  have hchecked : ∀ v : State, v.intake = s.intake → v.resetLow = false → s.takeFrame r = v.roomCheck r → checked v :=
    fun v hvi hvl ht => ⟨exec_arrived_handled he hl hh ht hvl, roomChecked_arrived he hl hh ht (hvi ▸ hh)⟩
  refine ⟨fun h => ?_, fun h hd => ?_, fun h hi hc => ?_, fun h hi e hf =>
    ⟨fun hkind => ⟨fun hroom => ?_, fun hfull => ?_⟩, fun hkind => ?_⟩⟩
  · exact hchecked s rfl hl (takeFrame_tagZero h)
  · exact leads_arrived he hl hh (takeFrame_duplicate h hd) hh
  · exact hchecked s rfl hl (takeFrame_uncached h hi hc)
  · exact leads_arrived he hl hh (takeFrame_resend h hi hf hkind hroom) hh
  · exact leads_arrived he hl hh (takeFrame_resend_dropped h hi hf hkind hfull) hh
  · exact hchecked _ rfl hl (takeFrame_cachedOther h hi hf hkind)

end Sys2Proof.Machine
end

section
/-! SUPPORT. The readers of the three bodies of varying structure accept nothing but what Table 10-4 lays out. -/

namespace Sys2Proof.Machine

/-! ### Fields read back as bytes -/

theorem byteOf_toNat_self (b : Byte) : byteOf b.toNat = b := BitVec.ofNat_toNat 8 b |>.trans (by simp)

theorem byteOf_nat16_high (h l : Byte) : byteOf (nat16 h l / 256) = h := by
  refine BitVec.eq_of_toNat_eq ?_
  have := h.isLt
  have := l.isLt
  simp only [nat16, byteOf, BitVec.toNat_ofNat]
  omega

theorem byteOf_nat16_low (h l : Byte) : byteOf (nat16 h l) = l := by
  refine BitVec.eq_of_toNat_eq ?_
  have := l.isLt
  simp only [nat16, byteOf, BitVec.toNat_ofNat]
  omega

theorem nat16_lt (h l : Byte) : nat16 h l < 65536 := by
  have := h.isLt
  have := l.isLt
  unfold nat16
  omega

theorem optional16_some {present : Bool} {rest rest' : List Byte} {o : Option Nat}
    (h : optional16 present rest = some (o, rest')) :
    o.isSome = present ∧ optionFits 65536 o ∧ rest = o.elim [] bytes16 ++ rest' := by
  unfold optional16 at h
  split at h
  · obtain ⟨rfl, rfl⟩ : none = o ∧ _ = rest' := by simpa using h
    exact ⟨rfl, by simp [optionFits], rfl⟩
  · rename_i hi lo r
    obtain ⟨rfl, rfl⟩ : some (nat16 hi lo) = o ∧ r = rest' := by simpa using h
    exact ⟨rfl, by simpa [optionFits] using nat16_lt hi lo, by
      simp [bytes16, byteOf_nat16_high, byteOf_nat16_low]⟩
  · cases h
  · cases h

theorem optional8_some {present : Bool} {rest rest' : List Byte} {o : Option Nat}
    (h : optional8 present rest = some (o, rest')) :
    o.isSome = present ∧ optionFits 256 o ∧ rest = o.elim [] (fun n => [byteOf n]) ++ rest' := by
  unfold optional8 at h
  split at h
  · obtain ⟨rfl, rfl⟩ : none = o ∧ _ = rest' := by simpa using h
    exact ⟨rfl, by simp [optionFits], rfl⟩
  · rename_i b r
    obtain ⟨rfl, rfl⟩ : some b.toNat = o ∧ r = rest' := by simpa using h
    exact ⟨rfl, by simpa [optionFits] using b.isLt, by simp [byteOf_toNat_self]⟩
  · cases h

/-! ### SUBMIT -/

theorem segmentFields_some : ∀ {n : Nat} {body : List Byte} {gs : List SegmentField}, segmentFields n body = some gs →
    gs.length = n ∧ (∀ g ∈ gs, g.shaped) ∧ body = gs.flatMap SegmentField.body
  | 0, [], gs, h => by
    obtain rfl : [] = gs := by simpa [segmentFields] using h
    simp
  | 0, _ :: _, gs, h => by simp [segmentFields] at h
  | n + 1, [], gs, h => by simp [segmentFields] at h
  | n + 1, [_], gs, h => by simp [segmentFields] at h
  | n + 1, d :: l :: rest, gs, h => by
    rw [segmentFields] at h
    split at h
    · rename_i hd
      split at h
      · rename_i hl
        obtain ⟨fs, hfs, rfl⟩ := Option.map_eq_some_iff.mp h
        obtain ⟨hlen, hshaped, hbody⟩ := segmentFields_some hfs
        refine ⟨by simp [hlen], List.forall_mem_cons.mpr ⟨?_, hshaped⟩, ?_⟩
        · simp [SegmentField.shaped, hd, hl]
        · rw [List.flatMap_cons, ← hbody]
          simp [SegmentField.body]
      · cases h
    · rename_i hd
      obtain ⟨fs, hfs, rfl⟩ := Option.map_eq_some_iff.mp h
      obtain ⟨hlen, hshaped, hbody⟩ := segmentFields_some hfs
      refine ⟨by simp [hlen], List.forall_mem_cons.mpr ⟨?_, hshaped⟩, ?_⟩
      · simp [SegmentField.shaped, hd]
      · rw [List.flatMap_cons, ← hbody]
        simp [SegmentField.body]

/-- An options byte is told by its two marks. -/
theorem byteOf_twoMarks : ∀ o : Byte, o.toNat < 4 → byteOf (bit (o.getLsbD 0) + 2 * bit (o.getLsbD 1)) = o := by
  decide

theorem submitFields_some {body : List Byte} {f : SubmitFields} (h : submitFields body = some f) :
    f.shaped ∧ f.body = body := by
  unfold submitFields at h
  split at h
  · rename_i handle cls options rest
    split at h
    · rename_i hfits
      obtain ⟨-, hlong, hoptions⟩ := hfits
      split at h
      · rename_i deadline rest₁ hdeadline
        split at h
        · rename_i attempts n rest₂ hattempts
          split at h
          · rename_i hn
            obtain ⟨segments, hsegments, rfl⟩ := Option.map_eq_some_iff.mp h
            obtain ⟨hmark0, hfit0, rfl⟩ := optional16_some hdeadline
            obtain ⟨hmark1, hfit1, rfl⟩ := optional8_some hattempts
            obtain ⟨hlen, hshaped, rfl⟩ := segmentFields_some hsegments
            have hbody : SubmitFields.body { handle, cls, deadline, attempts, segments } = handle :: cls :: options ::
                (deadline.elim [] bytes16 ++ (attempts.elim [] (fun n => [byteOf n]) ++
                  n :: segments.flatMap SegmentField.body)) := by
              rw [SubmitFields.body_eq, SubmitFields.options]
              simp only [hmark0, hmark1, byteOf_twoMarks options hoptions, hlen, byteOf_toNat_self]
            exact ⟨⟨hfit0, hfit1, by simpa [hlen] using hn.1, by simpa [hlen] using hn.2, hshaped, by rwa [hbody]⟩, hbody⟩
          · cases h
        · cases h
        · cases h
      · cases h
    · cases h
  all_goals cases h

/-! ### TARGET_ADD -/

/-- A terms byte is told by its four marks. -/
theorem byteOf_fourMarks : ∀ o : Byte, o.toNat < 16 →
    byteOf (bit (o.getLsbD 0) + 2 * bit (o.getLsbD 1) + 4 * bit (o.getLsbD 2) + 8 * bit (o.getLsbD 3)) = o := by
  decide

theorem targetFields_some {body : List Byte} {f : TargetFields} (h : targetFields body = some f) :
    f.shaped ∧ f.body = body := by
  unfold targetFields at h
  split at h
  · rename_i bus address terms rest
    split at h
    · rename_i hterms
      split at h
      · rename_i attempts rest₁ hattempts
        split at h
        · rename_i retryGap rest₂ hgap
          split at h
          · rename_i threshold rest₃ hthreshold
            split at h
            · rename_i probeInterval hinterval
              obtain rfl := Option.some.inj h
              obtain ⟨hmark0, hfit0, rfl⟩ := optional8_some hattempts
              obtain ⟨hmark1, hfit1, rfl⟩ := optional16_some hgap
              obtain ⟨hmark2, hfit2, rfl⟩ := optional8_some hthreshold
              obtain ⟨hmark3, hfit3, rfl⟩ := optional16_some hinterval
              refine ⟨⟨hfit0, hfit1, hfit2, hfit3⟩, ?_⟩
              rw [TargetFields.body_eq, TargetFields.terms]
              simp only [hmark0, hmark1, hmark2, hmark3, byteOf_fourMarks terms hterms]
            · cases h
            · cases h
          · cases h
        · cases h
      · cases h
    · cases h
  all_goals cases h

/-! ### POLL_SET -/

theorem pollFields_some {body : List Byte} {f : PollFields} (h : pollFields body = some f) :
    f.shaped ∧ f.body = body := by
  unfold pollFields at h
  split at h
  · rename_i index handle cls policy ph pl plen rest
    split at h
    · rename_i rlen mask hdrop
      split at h
      · rename_i hfits
        obtain ⟨hlong, hmask⟩ := hfits
        obtain rfl := Option.some.inj h
        have hrest : rest.take plen.toNat ++ rlen :: mask = rest := by rw [← hdrop, List.take_append_drop]
        have hlen : (rest.take plen.toNat).length = plen.toNat := by
          have hpos : 0 < (rest.drop plen.toNat).length := by simp [hdrop]
          rw [List.length_drop] at hpos
          rw [List.length_take]
          omega
        have htotal := congrArg List.length hrest
        simp only [List.length_append, List.length_cons] at htotal hlong
        refine ⟨⟨nat16_lt ph pl, hmask, ?_⟩, ?_⟩
        · show 8 + (rest.take plen.toNat).length + rlen.toNat ≤ 240
          omega
        · rw [PollFields.body_eq]
          simp only [byteOf_nat16_high, byteOf_nat16_low, hlen, byteOf_toNat_self, hrest]
      · cases h
    · cases h
  · cases h

/-- Settles O13: what the readers accept is laid out so, and what is laid out so is read back. -/
theorem requestBodiesReadBack : Obligations.RequestBodiesReadBack :=
  ⟨fun _ _ => ⟨submitFields_some, fun ⟨hs, hb⟩ => hb ▸ submitFields_body hs⟩,
   fun _ _ => ⟨targetFields_some, fun ⟨hs, hb⟩ => hb ▸ targetFields_body hs⟩,
   fun _ _ => ⟨pollFields_some, fun ⟨hs, hb⟩ => hb ▸ pollFields_body hs⟩⟩

/-! ### Bodies that do not fit their kind -/

theorem submitFields_eq_none {body : List Byte} (h : ∀ f : SubmitFields, f.shaped → f.body ≠ body) :
    submitFields body = none :=
  Option.eq_none_iff_forall_ne_some.mpr fun f hf => h f (submitFields_some hf).1 (submitFields_some hf).2

theorem targetFields_eq_none {body : List Byte} (h : ∀ f : TargetFields, f.shaped → f.body ≠ body) :
    targetFields body = none :=
  Option.eq_none_iff_forall_ne_some.mpr fun f hf => h f (targetFields_some hf).1 (targetFields_some hf).2

theorem pollFields_eq_none {body : List Byte} (h : ∀ f : PollFields, f.shaped → f.body ≠ body) :
    pollFields body = none :=
  Option.eq_none_iff_forall_ne_some.mpr fun f hf => h f (pollFields_some hf).1 (pollFields_some hf).2

end Sys2Proof.Machine
end

section
/-! SUPPORT. The request kinds by their owners, and what the handler refuses for every kind. -/

namespace Sys2Proof.Machine

/-! ### Kinds and their owners -/

/-- The owner of a listed kind (Table 9-1). -/
def Kind.owner : Kind → List Byte → State → State × Answer
  | .hello => answerHello | .hubReset => answerHubReset | .attentionMask => answerAttentionMask
  | .linkConfig => answerLinkConfig | .linkStatus => answerLinkStatus
  | .submit => answerSubmit | .cancel => answerCancel | .query => answerQuery | .flush => answerFlush
  | .fetch => answerFetch
  | .busConfig => answerBusConfig | .busStatus => answerBusStatus | .busReset => answerBusReset
  | .targetAdd => answerTargetAdd | .targetRemove => answerTargetRemove | .targetRelease => answerTargetRelease
  | .targetQuery => answerTargetQuery | .targetChanges => answerTargetChanges
  | .pollSet => answerPollSet | .pollOff => answerPollOff | .pollRead => answerPollRead
  | .listenSet => answerListenSet | .pageSet => answerPageSet | .inboundRead => answerInboundRead

/-- The command of a listed kind asks the kind's owner. -/
theorem exec_requestCommand (k : Kind) (tag : Byte) (body : List Byte) (s : State) :
    exec (requestCommand { kind := k.code, tag := tag, body := body }) s =
      request k.code tag body (Kind.owner k body) s := by
  cases k <;> rfl

/-- The command of a request is the one the handler takes it as. -/
theorem eq_requestCommand {c : Instr} {r : Request} (hr : requestOf c = some r) (hk : c.kindFits = true) :
    c = requestCommand r := by
  cases c
  case unknownKind k t b =>
    obtain rfl : Request.mk k t b = r := by simpa [requestOf] using hr
    have hk' : kindListed k = false := by
      have : (decide (k.toNat < 128) && !kindListed k) = true := hk
      simp_all
    have hne : ∀ x : Kind, x ∈ Kind.all → k ≠ x.code := fun x hx h => by
      simp only [kindListed, List.any_eq_false] at hk'
      exact hk' x hx (by simp [h])
    simp only [Kind.all, List.forall_mem_cons, List.not_mem_nil, false_implies, implies_true, and_true] at hne
    simp only [requestCommand, hne, if_false]
  all_goals
    simp only [requestOf, Option.some.injEq, reduceCtorEq] at hr <;> (subst hr; rfl)

theorem replies_refuse {c : Instr} {kind tag : Byte} {body : List Byte} {s : State} {owner : State → State × Answer}
    {code : ReplyCode} (he : exec c s = request kind tag body owner s)
    (hs : s.ready { kind := kind, tag := tag, body := body }) (hb : body.length ≤ 240)
    (ho : owner s.taking = (s.taking, Answer.refuse code)) : Replies c s s.taking kind tag code [] .plain :=
  replies_of_owner he hs hb ho (.inr rfl)

/-! ### Lengths -/

/-- A body of another length than its kind's is refused BAD_FORMAT by its owner. -/
theorem owner_badFormat {k : Kind} {n : Nat} (hk : fixedLength k = some n) {body : List Byte} (hb : body.length ≠ n)
    (s : State) : Kind.owner k body s = (s, Answer.refuse .badFormat) := by
  cases k with
  | submit | targetAdd | pollSet | pageSet => cases hk
  | hello | hubReset | linkStatus =>
    obtain rfl := Option.some.inj hk
    rcases body with _ | ⟨a, l⟩
    · exact absurd rfl hb
    · rfl
  | cancel | query =>
    obtain rfl := Option.some.inj hk
    rcases body with _ | ⟨a, _ | ⟨b, _ | ⟨c, l⟩⟩⟩
    · rfl
    · rfl
    · exact absurd rfl hb
    · rfl
  | linkConfig | listenSet =>
    obtain rfl := Option.some.inj hk
    rcases body with _ | ⟨a, _ | ⟨b, _ | ⟨c, _ | ⟨d, l⟩⟩⟩⟩
    · rfl
    · rfl
    · rfl
    · exact absurd rfl hb
    · rfl
  | busConfig =>
    obtain rfl := Option.some.inj hk
    show answerBusConfig body s = _
    unfold answerBusConfig
    split
    · exact absurd rfl hb
    · rfl
  | _ =>
    obtain rfl := Option.some.inj hk
    rcases body with _ | ⟨a, _ | ⟨b, l⟩⟩
    · rfl
    · exact absurd rfl hb
    · rfl

theorem answerPageSet_badFormat {body : List Byte} (hb : body = [] ∨ 17 < body.length) (s : State) :
    answerPageSet body s = (s, Answer.refuse .badFormat) := by
  rcases body with _ | ⟨bus, page⟩
  · rfl
  · have hp : ¬ page.length ≤ 16 := by
      have := hb.resolve_left (by simp)
      rw [List.length_cons] at this
      omega
    exact if_neg hp

/-- Settles O12: the handler asks the kind's owner, which refuses a body that does not fit. -/
theorem genericChecksRefuse : Obligations.GenericChecksRefuse := by
  intro s tag body hb
  refine ⟨fun k hk hs => ?_, fun c k n hr hfit hs hn hlen => ?_, fun hs hf => ?_, fun hs hf => ?_, fun hs hf => ?_,
    fun hs hp => ?_⟩
  · exact replies_refuse (owner := answerUnknownKind) (if_pos hk) hs hb rfl
  · rw [eq_requestCommand hr hfit]
    exact replies_refuse (exec_requestCommand k tag body s) hs hb (owner_badFormat hn hlen s.taking)
  · exact replies_refuse (owner := answerSubmit body) rfl hs hb (by rw [answerSubmit, submitFields_eq_none hf])
  · exact replies_refuse (owner := answerTargetAdd body) rfl hs hb (by rw [answerTargetAdd, targetFields_eq_none hf])
  · exact replies_refuse (owner := answerPollSet body) rfl hs hb (by rw [answerPollSet, pollFields_eq_none hf])
  · exact replies_refuse (owner := answerPageSet body) rfl hs hb (answerPageSet_badFormat hp s.taking)

end Sys2Proof.Machine
end

section
/-! SUPPORT. HELLO, HUB_RESET, ATTENTION_MASK and LINK_CONFIG. -/

namespace Sys2Proof.Machine

theorem switchValue_eq (on : Bool) : switchValue on = byteOf (bit on) := by cases on <;> rfl

/-- A mask byte names the six members of its low bits. -/
theorem flagsOf?_low {m : Byte} (hm : m.toNat < 64) :
    flagsOf? m = some { restarted := m.getLsbD 0, results := m.getLsbD 1, inbound := m.getLsbD 2, polls := m.getLsbD 3,
                        targets := m.getLsbD 4, buses := m.getLsbD 5 } := if_pos hm

/-- The byte of the set that a mask byte names is that byte. -/
theorem toByte_flagsOf : ∀ m : Byte, m.toNat < 64 →
    FlagSet.toByte { restarted := m.getLsbD 0, results := m.getLsbD 1, inbound := m.getLsbD 2, polls := m.getLsbD 3,
                     targets := m.getLsbD 4, buses := m.getLsbD 5 } = m := by
  decide

/-- Settles O16: the three owners' answers, and a mask with bit 6 or 7 set names no set. -/
theorem handlerRequestsAnswer : Obligations.HandlerRequestsAnswer := by
  intro s tag
  refine ⟨fun hs => ?_, fun hs => ?_, fun m hs => ⟨fun hm => ?_, fun hm => ?_⟩⟩
  · refine replies_of_owner (owner := answerHello []) rfl hs (by simp) ?_ (.inl rfl)
    rw [answerHello, switchValue_eq]
    rfl
  · exact replies_of_owner (owner := answerHubReset []) rfl hs (by simp) rfl (.inl rfl)
  · refine replies_of_owner (owner := answerAttentionMask [m]) rfl hs (by simp) ?_ (.inl rfl)
    rw [answerAttentionMask, flagsOf?_low hm]
    dsimp only
    rw [toByte_flagsOf m hm, announcedUnder]
    simp only [Bool.not_and, Bool.not_not, Bool.or_comm (!_)]
    rfl
  · refine replies_refuse (owner := answerAttentionMask [m]) rfl hs (by simp) ?_
    rw [answerAttentionMask, flagsOf?, if_neg (Nat.not_lt.mpr hm)]

/-! ### LINK_CONFIG -/

theorem rateOf?_eq_some_iff (n : Nat) (r : LinkRate) : rateOf? n = some r ↔ n = r.bitsPerSecond := by
  unfold rateOf?
  cases r <;> simp only [LinkRate.bitsPerSecond] <;> split_ifs <;> simp_all

theorem rateOf?_eq_none {n : Nat} (h : ∀ r : LinkRate, n ≠ r.bitsPerSecond) : rateOf? n = none :=
  Option.eq_none_iff_forall_ne_some.mpr fun r hr => h r ((rateOf?_eq_some_iff n r).mp hr)

theorem bytes24_nat24 (a b c : Byte) : bytes24 (nat24 a b c) = [a, b, c] := by
  have := a.isLt
  have := b.isLt
  have := c.isLt
  unfold bytes24 nat24 byteOf
  refine congrArg₂ _ (BitVec.eq_of_toNat_eq ?_) (congrArg₂ _ (BitVec.eq_of_toNat_eq ?_)
    (congrArg₂ _ (BitVec.eq_of_toNat_eq ?_) rfl)) <;>
  · rw [BitVec.toNat_ofNat]
    omega

theorem frames_dropSwitchPoint (s : State) :
    s.dropSwitchPoint.filled.map Reply.frame = s.filled.map Reply.frame ∧
    frameSending s.dropSwitchPoint.transmitter = frameSending s.transmitter := by
  refine ⟨by simp [State.dropSwitchPoint, Reply.unswitched, Function.comp_def], ?_⟩
  unfold State.dropSwitchPoint
  cases s.transmitter <;> rfl

/-- Settles O17: the rate is found in Table 8-1, the switch points before are unmarked, and the reply carries the mark. -/
theorem linkConfigSetsThePendingRate : Obligations.LinkConfigSetsThePendingRate := by
  intro s tag a b c hs
  refine ⟨fun r hr => ?_, fun hn => ?_⟩
  · obtain ⟨hframes, hsending⟩ := frames_dropSwitchPoint s.taking
    refine ⟨{ s.taking.dropSwitchPoint with pendingRate := some r }, ?_, rfl, ?_, ?_, hframes, hsending⟩
    · refine replies_of_owner (owner := answerLinkConfig [a, b, c]) rfl hs (by simp) ?_ (.inl rfl)
      rw [answerLinkConfig, (rateOf?_eq_some_iff _ r).mpr hr, ← bytes24_nat24 a b c, hr]
    · exact marksOwed_dropSwitchPoint_switch s.taking
    · exact marksOwed_dropSwitchPoint_reset s.taking
  · refine replies_refuse (owner := answerLinkConfig [a, b, c]) rfl hs (by simp) ?_
    rw [answerLinkConfig, rateOf?_eq_none hn]

end Sys2Proof.Machine
end

section
/-! SUPPORT. The search for a ticket's holder, and the requests that report and change nothing. -/

namespace Sys2Proof.Machine

/-! ### Tickets -/

theorem Txn.hasTicket_iff (t : Txn) (k : Nat) : t.hasTicket k = true ↔ t.ticket? = some k := by
  unfold Txn.hasTicket Txn.ticket?
  split <;> simp

theorem queuedTicket_some {s : State} {k : Nat} {b : BusId} {t : Txn} (h : s.queuedTicket k = some (b, t)) :
    (s.bus b).queue.find? (fun u => u.hasTicket k) = some t := by
  obtain ⟨c, -, hc⟩ := List.exists_of_findSome?_eq_some h
  obtain ⟨u, hu, he⟩ := Option.map_eq_some_iff.mp hc
  obtain ⟨rfl, rfl⟩ : c = b ∧ u = t := by simpa using he
  exact hu

theorem queuedTicket_none {s : State} {k : Nat} :
    s.queuedTicket k = none ↔ ∀ b, ∀ t ∈ (s.bus b).queue, t.hasTicket k = false := by
  simp [State.queuedTicket, List.findSome?_eq_none_iff, allBuses]

theorem activeTicket_some {s : State} {k : Nat} {b : BusId} (h : s.activeTicket k = some b) :
    ∃ t, (s.bus b).engine.record? = some t ∧ t.hasTicket k = true := by
  unfold State.activeTicket at h
  simpa [Option.any_eq_true] using List.find?_some h

theorem activeTicket_none {s : State} {k : Nat} :
    s.activeTicket k = none ↔ ∀ b t, (s.bus b).engine.record? = some t → t.hasTicket k = false := by
  simp [State.activeTicket, List.find?_eq_none, allBuses, Option.any_eq_true]

/-- The records of the hub are those of its buses. -/
theorem mem_records {s : State} {t : Txn} : t ∈ s.records ↔ ∃ b, t ∈ (s.bus b).records := by
  simp [State.records, allBuses]

theorem Bus.mem_records {x : Bus} {t : Txn} : t ∈ x.records ↔ t ∈ x.queue ∨ x.engine.record? = some t := by
  simp [Bus.records]

/-- What the search answers: a queued record before an ACTIVE one, then a decided and a stored one. -/
theorem findTicket_cases (s : State) (k : Nat) :
    (∃ b t, s.queuedTicket k = some (b, t) ∧ s.findTicket k = .queued b t) ∨
    (s.queuedTicket k = none ∧ ∃ b, s.activeTicket k = some b ∧ s.findTicket k = .active b) ∨
    (s.queuedTicket k = none ∧ s.activeTicket k = none ∧ (∃ d ∈ s.waitList, d.record.hasTicket k = true) ∧
      s.findTicket k = .decided) ∨
    (s.queuedTicket k = none ∧ s.activeTicket k = none ∧ (∀ d ∈ s.waitList, d.record.hasTicket k = false) ∧
      (∃ c ∈ s.store, c.ticket = k) ∧ s.findTicket k = .stored) ∨
    (s.queuedTicket k = none ∧ s.activeTicket k = none ∧ (∀ d ∈ s.waitList, d.record.hasTicket k = false) ∧
      (∀ c ∈ s.store, c.ticket ≠ k) ∧ s.findTicket k = .nowhere) := by
  unfold State.findTicket
  cases hq : s.queuedTicket k with
  | some p => exact .inl ⟨p.1, p.2, rfl, rfl⟩
  | none =>
    cases ha : s.activeTicket k with
    | some b => exact .inr (.inl ⟨rfl, b, rfl, rfl⟩)
    | none =>
      dsimp only
      by_cases hw : (s.waitList.any fun d => d.record.hasTicket k) = true
      · exact .inr (.inr (.inl ⟨rfl, rfl, by simpa using hw, if_pos hw⟩))
      · rw [if_neg hw]
        by_cases hc : (s.store.any fun c => c.ticket == k) = true
        · exact .inr (.inr (.inr (.inl ⟨rfl, rfl, by simpa using hw, by simpa using hc, if_pos hc⟩)))
        · exact .inr (.inr (.inr (.inr ⟨rfl, rfl, by simpa using hw, by simpa using hc, if_neg hc⟩)))

theorem findTicket_queued {s : State} {k : Nat} {b : BusId} {t : Txn} (h : s.findTicket k = .queued b t) :
    (s.bus b).queue.find? (fun u => u.hasTicket k) = some t := by
  rcases findTicket_cases s k with ⟨c, u, hq, hf⟩ | ⟨-, c, -, hf⟩ | ⟨-, -, -, hf⟩ | ⟨-, -, -, -, hf⟩ | ⟨-, -, -, -, hf⟩
  · obtain ⟨rfl, rfl⟩ : c = b ∧ u = t := by simpa [h, eq_comm] using hf
    exact queuedTicket_some hq
  all_goals simp [h] at hf

theorem findTicket_active {s : State} {k : Nat} {b : BusId} (h : s.findTicket k = .active b) :
    ∃ t, (s.bus b).engine.record? = some t ∧ t.hasTicket k = true := by
  rcases findTicket_cases s k with ⟨c, u, -, hf⟩ | ⟨-, c, ha, hf⟩ | ⟨-, -, -, hf⟩ | ⟨-, -, -, -, hf⟩ | ⟨-, -, -, -, hf⟩
  · simp [h] at hf
  · obtain rfl : c = b := by simpa [h, eq_comm] using hf
    exact activeTicket_some ha
  all_goals simp [h] at hf

/-- A ticket the search does not find is not in use. -/
theorem not_mem_ticketsInUse {s : State} {k : Nat} (hq : s.queuedTicket k = none) (ha : s.activeTicket k = none)
    (hw : ∀ d ∈ s.waitList, d.record.hasTicket k = false) (hc : ∀ c ∈ s.store, c.ticket ≠ k) :
    k ∉ s.ticketsInUse := by
  rw [State.ticketsInUse, List.mem_append, List.mem_append, List.mem_filterMap, List.mem_filterMap, List.mem_map]
  rintro ((⟨t, ht, hk⟩ | ⟨d, hd, hk⟩) | ⟨c, hc', hk⟩)
  · obtain ⟨b, hb⟩ := mem_records.mp ht
    have hk' := (t.hasTicket_iff k).mpr hk
    rcases Bus.mem_records.mp hb with hb | hb
    · simp [queuedTicket_none.mp hq b t hb] at hk'
    · simp [activeTicket_none.mp ha b t hb] at hk'
  · exact absurd ((d.record.hasTicket_iff k).mpr hk) (by simp [hw d hd])
  · exact hc c hc' hk

/-- Settles O19: each answer of the search is given by the place it looked at. -/
theorem ticketHolderIsFound : Obligations.TicketHolderIsFound := by
  intro s k
  rcases findTicket_cases s k with ⟨b, t, -, hf⟩ | ⟨-, b, -, hf⟩ | ⟨-, -, hw, hf⟩ | ⟨-, -, -, hc, hf⟩ |
    ⟨hq, ha, hw, hc, hf⟩
  · have h := findTicket_queued hf
    rw [hf]
    exact ⟨List.mem_of_find?_eq_some h, (t.hasTicket_iff k).mp (by simpa using List.find?_some h)⟩
  · obtain ⟨t, ht, hk⟩ := findTicket_active hf
    rw [hf]
    exact ⟨t, ht, (t.hasTicket_iff k).mp hk⟩
  · obtain ⟨d, hd, hk⟩ := hw
    rw [hf]
    exact ⟨d, hd, (d.record.hasTicket_iff k).mp hk⟩
  · rw [hf]
    exact hc
  · rw [hf]
    exact not_mem_ticketsInUse hq ha hw hc

end Sys2Proof.Machine
end

section
/-! SUPPORT. LINK_STATUS, QUERY and TARGET_QUERY, and where decisions go. -/

namespace Sys2Proof.Machine

theorem linkStatusFields_eq (s : State) :
    linkStatusFields s =
      bytes24 s.rate.bitsPerSecond ++ bytes24 (match s.pendingRate with
            | some r => r.bitsPerSecond
            | none => 0)
          ++ bytes16 s.discards.gap ++ bytes16 s.discards.length ++ bytes16 s.discards.check ++ bytes16 s.discards.kind
          ++ bytes16 s.discards.duplicate
          ++ [byteOf s.intake.length, byteOf (1 + s.intake.length + s.owed.length)] := by
  unfold linkStatusFields
  cases s.pendingRate <;> rfl

theorem findIdx_append_cons {α : Type} {p : α → Bool} {before after : List α} {x : α}
    (hb : ∀ u ∈ before, p u = false) (hx : p x = true) : (before ++ x :: after).findIdx p = before.length := by
  induction before with
  | nil => simp [List.findIdx_cons, hx]
  | cons u us ih =>
    obtain ⟨hu, hus⟩ := List.forall_mem_cons.mp hb
    simp [List.findIdx_cons, hu, ih hus]

/-- A queued record's place in its class sub-list, counted from 1. -/
theorem Bus.position_eq {x : Bus} {t : Txn} {k : Nat} {before after : List Txn}
    (hl : x.subList t.cls = before ++ t :: after) (hb : ∀ u ∈ before, u.hasTicket k = false)
    (ht : t.hasTicket k = true) : x.position t k = before.length + 1 := by
  rw [Bus.position, hl, findIdx_append_cons hb ht, Nat.add_comm]

theorem targetQueryFields_some {s : State} {h : Handle} {e : Entry} (he : s.entry h = some e) :
    targetQueryFields s h =
      [byteOf h.val, entryStateField (some e.state), byteOf e.bus.val, byteOf e.address.toNat, byteOf e.attempts]
        ++ bytes16 e.retryGap ++ [byteOf e.threshold] ++ bytes16 e.probeInterval
        ++ [byteOf e.refusals, byteOf (s.inFlight h), byteOf (s.pollRefs h)]
        ++ (match e.probe with
            | .none => [0x00#8]
            | .timing r => 0x01#8 :: bytes16 r
            | .due => [0x02#8]
            | .issued => [0x03#8]) := by
  unfold targetQueryFields
  rw [he]
  cases hp : e.probe <;> simp [ProbeStatus.value, hp]

theorem byteOf_of_toNat {n : Byte} {k : Nat} (h : n.toNat = k) : byteOf k = n := h ▸ byteOf_toNat_self n

theorem answerQuery_of_fields {h l : Byte} (hk : nat16 h l ≠ 0) {s : State} {fields : List Byte}
    (hf : queryFields s (nat16 h l) = some fields) : answerQuery [h, l] s = (s, Answer.ok fields) := by
  rw [answerQuery, if_neg hk, hf]

theorem handleOf?_eq_none {n : Byte} (hn : 64 ≤ n.toNat) : handleOf? n = none := dif_neg (by omega)

/-- Settles O18: the three owners leave the state as it is and tell its fields; a queued record's place is counted in its
sub-list. -/
theorem readingRequestsReport : Obligations.ReadingRequestsReport := by
  intro s tag
  refine ⟨fun hs => ?_, fun h l hs => ⟨fun hk => ?_, fun hk => ⟨fun b t before after hf hl hb => ?_, fun b hf => ?_,
    fun hf => ?_, fun hf => ?_, fun hf => ?_⟩⟩, fun n hs => ⟨fun hn => ?_, fun k hn => ⟨fun he => ?_, fun e he => ?_⟩⟩⟩
  · refine replies_of_owner (owner := answerLinkStatus []) rfl hs (by simp) ?_ (.inl rfl)
    rw [answerLinkStatus, linkStatusFields_eq]
    rfl
  · exact replies_refuse (owner := answerQuery [h, l]) rfl hs (by simp) (if_pos hk)
  · have hfields : queryFields s.taking (nat16 h l) =
        some [if t.notBefore = none then 0x01#8 else 0x02#8, byteOf (before.length + 1)] := by
      have ht : t.hasTicket (nat16 h l) = true := by simpa using List.find?_some (findTicket_queued hf)
      rw [queryFields, show s.taking.findTicket (nat16 h l) = _ from hf]
      dsimp only
      rw [show (s.taking.bus b).position t (nat16 h l) = _ from Bus.position_eq hl hb ht]
      cases t.notBefore <;> rfl
    exact replies_of_owner (owner := answerQuery [h, l]) rfl hs (by simp) (answerQuery_of_fields hk hfields) (.inl rfl)
  · refine replies_of_owner (owner := answerQuery [h, l]) rfl hs (by simp) (answerQuery_of_fields hk ?_) (.inl rfl)
    rw [queryFields, show s.taking.findTicket (nat16 h l) = _ from hf]
    rfl
  · refine replies_of_owner (owner := answerQuery [h, l]) rfl hs (by simp) (answerQuery_of_fields hk ?_) (.inl rfl)
    rw [queryFields, show s.taking.findTicket (nat16 h l) = _ from hf]
    rfl
  · refine replies_of_owner (owner := answerQuery [h, l]) rfl hs (by simp) (answerQuery_of_fields hk ?_) (.inl rfl)
    rw [queryFields, show s.taking.findTicket (nat16 h l) = _ from hf]
    rfl
  · refine replies_refuse (owner := answerQuery [h, l]) rfl hs (by simp) ?_
    rw [answerQuery, if_neg hk, queryFields, show s.taking.findTicket (nat16 h l) = _ from hf]
  · refine replies_refuse (owner := answerTargetQuery [n]) rfl hs (by simp) ?_
    rw [answerTargetQuery, handleOf?_eq_none hn]
  · refine replies_of_owner (owner := answerTargetQuery [n]) rfl hs (by simp) ?_ (.inl rfl)
    rw [answerTargetQuery, (handleOf?_eq_some_iff n k).mpr hn]
    dsimp only
    rw [targetQueryFields, show s.taking.entry k = _ from he, byteOf_of_toNat hn]
    rfl
  · refine replies_of_owner (owner := answerTargetQuery [n]) rfl hs (by simp) ?_ (.inl rfl)
    rw [answerTargetQuery, (handleOf?_eq_some_iff n k).mpr hn]
    dsimp only
    rw [targetQueryFields_some (s := s.taking) he, byteOf_of_toNat hn]
    cases e.state <;> rfl

/-! ### Decisions -/

theorem conclude_host {t : Txn} {k : Nat} (ht : t.origin = .host k) (s : State) (o : TxnOutcome) :
    s.conclude t o = s.deliver t o := by
  rw [State.conclude, ht]

theorem conclude_orphan {t : Txn} {i : PollIndex} (ht : t.origin = .poll i true) (s : State) (o : TxnOutcome) :
    s.conclude t o = s := by
  rw [State.conclude, ht]

/-- Settles O20: a HOST record is delivered, to the store or the wait list, and an orphan's decision is dropped. -/
theorem decisionsGoToTheStore : Obligations.DecisionsGoToTheStore := by
  intro s t o
  refine ⟨fun k hk => ⟨fun hs hw => ?_, fun h => ?_⟩, fun i hi => conclude_orphan hi s o⟩
  · rw [conclude_host hk, State.deliver, if_pos ⟨hs, hw⟩]
    simp [completionsOf, Txn.ticket?, hk, completionOf]
  · rw [conclude_host hk, State.deliver, if_neg]
    rintro ⟨hs, hw⟩
    rcases h with h | h
    · exact absurd hs (Nat.not_lt.mpr h)
    · exact h hw

end Sys2Proof.Machine
end

section
/-! SUPPORT. Happenings of the line and the engine out of their place: each acts in one kind of engine state alone. -/

namespace Sys2Proof.Machine

/-! ### What an engine is in -/

theorem Engine.drivingRecord?_eq_some_iff (e : Engine) (p : DrivePhase) (t : Txn) :
    e.drivingRecord? = some (p, t) ↔ e = .driving p (.record t) := by
  unfold Engine.drivingRecord?
  split <;> simp_all

theorem DrivePhase.addressing_iff (p : DrivePhase) : p.addressing = true ↔ p = .start ∨ p = .address := by
  cases p <;> simp [DrivePhase.addressing]

theorem Engine.value_driving_iff (e : Engine) : e.value = 0x03#8 ↔ ∃ p w, e = .driving p w := by
  cases e <;> simp [Engine.value]

theorem Engine.value_clearing_iff (e : Engine) : e.value = 0x05#8 ↔ ∃ kept n stage, e = .clearing kept n stage := by
  cases e <;> simp [Engine.value]

theorem Engine.value_occupied_iff (e : Engine) : e.value = 0x02#8 ↔ ∃ hearing, e = .occupied hearing := by
  cases e <;> simp [Engine.value]

theorem Engine.value_answering_iff (e : Engine) : e.value = 0x04#8 ↔ ∃ r, e = .answering r := by
  cases e <;> simp [Engine.value]

theorem Engine.value_idle_iff (e : Engine) : e.value = 0x01#8 ↔ ∃ w, e = .idle w := by
  cases e <;> simp [Engine.value]

theorem Engine.stuckReaches_iff (e : Engine) : e.stuckReaches = true ↔ e.value = 0x02#8 ∨ e.value = 0x04#8 := by
  cases e <;> simp [Engine.value, Engine.stuckReaches]

/-! ### Out of place -/

section OutOfPlace
variable {s : State} {b : BusId}

theorem makeStart_out (h : ¬ ∃ w, (s.bus b).engine = .idle (some w)) : s.makeStart b = s := by
  unfold State.makeStart
  dsimp only
  split
  · rename_i w he
    exact absurd ⟨w, he⟩ h
  all_goals rfl

theorem arbitrationLoss_out (h : ¬ (s.bus b).engine.value = 0x03#8) (cause : LossCause) :
    s.arbitrationLoss b cause = s := by
  unfold State.arbitrationLoss
  split
  · rename_i p w he
    exact absurd (by rw [he]; rfl) h
  all_goals rfl

theorem stallBus_out (h : ¬ (s.bus b).engine.value = 0x03#8) : s.stallBus b = s := by
  unfold State.stallBus
  split
  · rename_i p w he
    exact absurd (by rw [he]; rfl) h
  all_goals rfl

theorem releaseStop_out (h : ¬ ∃ r w, (s.bus b).engine = .driving (.stop r) w) (rose : Bool) :
    s.releaseStop b rose = s := by
  unfold State.releaseStop
  split
  · rename_i r w he
    exact absurd ⟨r, w, he⟩ h
  all_goals rfl

theorem addressAnswered_out
    (h : ¬ ∃ t, (s.bus b).engine = .driving .start (.record t) ∨ (s.bus b).engine = .driving .address (.record t))
    (ack : AckBit) : s.addressAnswered b ack = s := by
  unfold State.addressAnswered
  split
  · rfl
  · rename_i p t he
    have he := (Engine.drivingRecord?_eq_some_iff _ p t).mp he
    have hp : ¬ p.addressing = true := fun hp => h ⟨t, by
      rcases p.addressing_iff.mp hp with rfl | rfl
      · exact .inl he
      · exact .inr he⟩
    exact if_neg hp

theorem probeAnswered_out
    (h : ¬ ∃ k, (s.bus b).engine = .driving .start (.probe k) ∨ (s.bus b).engine = .driving .address (.probe k))
    (ack : AckBit) : s.probeAnswered b ack = s := by
  unfold State.probeAnswered
  split
  · rename_i p k he
    have hp : ¬ p.addressing = true := fun hp => h ⟨k, by
      rcases p.addressing_iff.mp hp with rfl | rfl
      · exact .inl he
      · exact .inr he⟩
    exact if_neg hp
  all_goals rfl

theorem writeAnswered_out (h : ¬ ∃ t, (s.bus b).engine = .driving .send (.record t)) (ack : AckBit) :
    s.writeAnswered b ack = s := by
  unfold State.writeAnswered
  split
  · rfl
  · rename_i p t he
    exact if_neg fun hp => h ⟨t, by rw [← hp]; exact (Engine.drivingRecord?_eq_some_iff _ p t).mp he⟩

theorem readTaken_complete_out (h : ¬ ∃ t, (s.bus b).engine = .driving (.receive none) (.record t)) (value : Byte) :
    s.readTaken b (.complete value) = s := by
  unfold State.readTaken
  split
  · rfl
  · rename_i p t he
    have he := (Engine.drivingRecord?_eq_some_iff _ p t).mp he
    split
    · split
      · exact absurd ⟨t, he⟩ h
      · contradiction
      · rfl
    · rfl
    · rfl

theorem readTaken_answered_out (h : ¬ ∃ g t, (s.bus b).engine = .driving (.receive (some g)) (.record t)) :
    s.readTaken b .answered = s := by
  unfold State.readTaken
  split
  · rfl
  · rename_i p t he
    have he := (Engine.drivingRecord?_eq_some_iff _ p t).mp he
    split
    · split
      · contradiction
      · exact absurd ⟨_, t, he⟩ h
      · rfl
    · rfl
    · rfl

theorem makeRepeatedStart_out (h : ¬ ∃ t, (s.bus b).engine = .driving .restart (.record t)) :
    s.makeRepeatedStart b = s := by
  unfold State.makeRepeatedStart
  split
  · rfl
  · rename_i p t he
    exact if_neg fun hp => h ⟨t, by rw [← hp]; exact (Engine.drivingRecord?_eq_some_iff _ p t).mp he⟩

theorem stuckTold_out (h : ¬ ((s.bus b).engine.value = 0x02#8 ∨ (s.bus b).engine.value = 0x04#8)) :
    s.stuckTold b = s := if_neg fun hr => h ((Engine.stuckReaches_iff _).mp hr)

theorem endClearing_out (h : ¬ (s.bus b).engine.value = 0x05#8) : s.endClearing b = s := by
  unfold State.endClearing
  split
  · rename_i kept n stage he
    exact absurd (by rw [he]; rfl) h
  all_goals rfl

theorem failClearing_out (h : ¬ (s.bus b).engine.value = 0x05#8) : s.failClearing b = s := by
  unfold State.failClearing
  split
  · rename_i kept n stage he
    exact absurd (by rw [he]; rfl) h
  all_goals rfl

theorem addressHeard_out (h : ¬ ∃ known, (s.bus b).engine = .occupied (some known)) (value : Byte) :
    s.addressHeard b value = s := by
  unfold State.addressHeard
  split
  · rename_i known he
    exact absurd ⟨known, he⟩ h
  all_goals rfl

theorem writeIn_out (h : ¬ ∃ r, (s.bus b).engine = .answering r ∧ r.kind = .write) (value : Byte) :
    s.writeIn b value = s := by
  unfold State.writeIn
  split
  · rename_i r he
    split
    · rename_i hk
      exact absurd ⟨r, he, hk⟩ h
    · rfl
  all_goals rfl

theorem readOut_out (h : ¬ ∃ r, (s.bus b).engine = .answering r ∧ r.kind = .read) (ack : AckBit) :
    s.readOut b ack = s := by
  unfold State.readOut
  split
  · rename_i r he
    split
    · rename_i hk _
      exact absurd ⟨r, he, hk⟩ h
    · rfl
    · rfl
  all_goals rfl

end OutOfPlace

/-- Settles O52: with RESET# low no action is taken, and out of place each happening's action leaves the state. -/
theorem happeningsOutOfPlaceChangeNothing : Obligations.HappeningsOutOfPlaceChangeNothing := by
  refine ⟨fun c s hl hp ha hr hw => ?_, ?_⟩
  · obtain ⟨f, hf⟩ := exec_wellFormed hw (by simp [Resets, hp, ha, hr])
    rw [hf, act_low hl]
  · intro s b ack value rose cause hl e outside
    refine ⟨fun ht => leads_of_act (f := State.endFrame) rfl hl (by rw [State.endFrame, ht]), fun h => ?_, fun h => ?_,
      fun h => ?_, fun h => ?_, fun h => ?_, fun h => ?_, fun h => ?_, fun h => ?_, fun h => ?_, fun h => ?_, fun h => ?_,
      fun h => ?_, fun h => ?_, fun h => ?_, fun h => ?_, fun h => ?_⟩
    · exact leads_of_act (f := fun u => u.makeStart b) rfl hl (makeStart_out h)
    · exact leads_of_act (f := fun u => u.arbitrationLoss b cause) rfl hl (arbitrationLoss_out h cause)
    · exact leads_of_act (f := fun u => u.stallBus b) rfl hl (stallBus_out h)
    · exact leads_of_act (f := fun u => u.releaseStop b rose) rfl hl (releaseStop_out h rose)
    · exact leads_of_act (f := fun u => u.addressAnswered b ack) rfl hl (addressAnswered_out h ack)
    · exact leads_of_act (f := fun u => u.probeAnswered b ack) rfl hl (probeAnswered_out h ack)
    · exact leads_of_act (f := fun u => u.writeAnswered b ack) rfl hl (writeAnswered_out h ack)
    · exact leads_of_act (f := fun u => u.readTaken b (.complete value)) rfl hl (readTaken_complete_out h value)
    · exact leads_of_act (f := fun u => u.readTaken b .answered) rfl hl (readTaken_answered_out h)
    · exact leads_of_act (f := fun u => u.makeRepeatedStart b) rfl hl (makeRepeatedStart_out h)
    · exact leads_of_act (f := fun u => u.stuckTold b) rfl hl (stuckTold_out h)
    · exact leads_of_act (f := fun u => u.endClearing b) rfl hl (endClearing_out h)
    · exact leads_of_act (f := fun u => u.failClearing b) rfl hl (failClearing_out h)
    · exact leads_of_act (f := fun u => u.addressHeard b value) rfl hl (addressHeard_out h value)
    · exact leads_of_act (f := fun u => u.writeIn b value) rfl hl (writeIn_out h value)
    · exact leads_of_act (f := fun u => u.readOut b ack) rfl hl (readOut_out h ack)

end Sys2Proof.Machine
end

section
/-! SUPPORT. Returns: what each test of a returning record makes of it, and the places of a record in its class. -/

namespace Sys2Proof.Machine

/-! ### Places of a record -/

theorem Bus.joinTail_eq (x : Bus) (t : Txn) : x.joinTail t = atTail x t := by
  unfold Bus.joinTail atTail
  cases t.cls <;> rfl

theorem Bus.joinHead_eq (x : Bus) (t : Txn) : x.joinHead t = atHead x t := by
  unfold Bus.joinHead atHead
  cases t.cls <;> rfl

theorem Bus.place_eq (x : Bus) (t : Txn) (place : Placement) :
    x.place t place = match place with
      | .tailWaiting n => atTail x { t with notBefore := some n }
      | .headQueued => atHead x { t with notBefore := none } := by
  cases place with
  | tailWaiting n => exact x.joinTail_eq _
  | headQueued => exact x.joinHead_eq _

/-! ### Returns -/

section Returns
variable {s : State} {t : Txn} {k : Nat} {i : PollIndex} {orphaned : Bool} (place : Placement)

theorem Txn.isHost_of_host (ht : t.origin = .host k) : t.isHost = true := by rw [Txn.isHost, ht]

theorem Txn.isOrphan_of_host (ht : t.origin = .host k) : t.isOrphan = false := by rw [Txn.isOrphan, ht]

theorem Txn.isHost_of_poll (ht : t.origin = .poll i orphaned) : t.isHost = false := by rw [Txn.isHost, ht]

theorem Txn.isOrphan_of_poll (ht : t.origin = .poll i orphaned) : t.isOrphan = orphaned := by rw [Txn.isOrphan, ht]

theorem decideAside_host (ht : t.origin = .host k) (o : TxnOutcome) : s.decideAside o t = s.conclude t.discarded o := by
  rw [conclude_host (t := t.discarded) ht]
  rfl

theorem giveBack_cancelled (ht : t.origin = .host k) (hc : t.cancelPending = true) :
    s.giveBack t place = s.conclude t.discarded .cancelled := by
  rw [State.giveBack, if_pos (by rw [hc, Txn.isHost_of_host ht]; rfl), decideAside_host ht]

theorem giveBack_targetOut (ht : t.origin = .host k) (hc : t.cancelPending = false)
    (hq : s.quarantined t.handle = true) : s.giveBack t place = s.conclude t.discarded .targetOut := by
  rw [State.giveBack, if_neg (by simp [hc]), if_pos hq, if_pos (Txn.isHost_of_host ht), decideAside_host ht]

theorem giveBack_expired (ht : t.origin = .host k) (hc : t.cancelPending = false)
    (hq : s.quarantined t.handle = false) (he : s.expired t = true) :
    s.giveBack t place = s.conclude t.discarded .expired := by
  rw [State.giveBack, if_neg (by simp [hc]), if_neg (by simp [hq]), if_neg (by simp [Txn.isOrphan_of_host ht]),
    if_pos he, decideAside_host ht]

theorem giveBack_freed (ht : t.origin = .poll i orphaned) (h : s.quarantined t.handle = true ∨ orphaned = true) :
    s.giveBack t place = s := by
  rw [State.giveBack, if_neg (by simp [Txn.isHost_of_poll ht])]
  by_cases hq : s.quarantined t.handle = true
  · rw [if_pos hq, if_neg (by simp [Txn.isHost_of_poll ht])]
  · rw [if_neg hq, if_pos ((Txn.isOrphan_of_poll ht).trans (h.resolve_left hq))]

theorem giveBack_placed (hc : t.isHost = true → t.cancelPending = false) (hq : s.quarantined t.handle = false)
    (ho : t.isOrphan = false) (he : s.expired t = false) :
    s.giveBack t place = s.setBus t.bus ((s.bus t.bus).place t place) := by
  rw [State.giveBack, if_neg, if_neg (by simp [hq]), if_neg (by simp [ho]), if_neg (by simp [he])]
  rw [Bool.and_eq_true]
  rintro ⟨h, hh⟩
  rw [hc hh] at h
  cases h

theorem State.expired_iff (ht : t.isHost = true) : s.expired t = true ↔ ∃ d, t.deadline = some d ∧ d ≤ s.now := by
  unfold State.expired
  cases t.deadline <;> simp [ht]

theorem State.expired_of_poll (ht : t.isHost = false) : s.expired t = false := by
  unfold State.expired
  cases t.deadline <;> simp [ht]

theorem reportRefusal_returns {e : Entry} (he : s.entry t.handle = some e) (hl : 1 < t.attemptsLeft) :
    s.reportRefusal t =
      s.giveBack { t with attemptsLeft := t.attemptsLeft - 1 } (.tailWaiting (s.time / 1000 + e.retryGap)) := by
  have hg : s.retryGap t.handle = e.retryGap := by rw [State.retryGap, he]
  rw [State.reportRefusal, if_pos (Nat.sub_pos_of_lt hl), hg]
  rfl

theorem reportRefusal_last (hl : t.attemptsLeft ≤ 1) :
    s.reportRefusal t = s.conclude { t with attemptsLeft := 0 } .noTarget := by
  have h0 : t.attemptsLeft - 1 = 0 := by omega
  rw [State.reportRefusal, h0]
  exact if_neg (Nat.lt_irrefl 0)

theorem reportLoss_returns (hl : t.lostArbitrations < 7) :
    s.reportLoss t = s.giveBack { t with lostArbitrations := t.lostArbitrations + 1 } .headQueued :=
  if_pos (Nat.succ_lt_succ hl)

theorem reportLoss_last (hl : 7 ≤ t.lostArbitrations) :
    s.reportLoss t = s.conclude { t with lostArbitrations := t.lostArbitrations + 1 } .lostBus :=
  if_neg (Nat.not_lt.mpr (Nat.succ_le_succ hl))

end Returns

/-- Settles O22: the tests of a return in their order, for HOST and POLL records. -/
theorem returnsAreDecidedOrPlaced : Obligations.ReturnsAreDecidedOrPlaced := by
  refine ⟨?_, fun s t => ⟨fun e he hl => reportRefusal_returns he hl, reportRefusal_last, reportLoss_returns,
    reportLoss_last⟩⟩
  intro s t place placed
  have hplaced : placed = s.setBus t.bus ((s.bus t.bus).place t place) :=
    congrArg (s.setBus t.bus) (Bus.place_eq (s.bus t.bus) t place).symm
  refine ⟨fun k ht => ⟨giveBack_cancelled place ht, giveBack_targetOut place ht, fun hc hq =>
    ⟨fun d hd hnow => ?_, fun hd => ?_⟩⟩, fun i orphaned ht => ⟨giveBack_freed place ht, fun hq ho => ?_⟩⟩
  · exact giveBack_expired place ht hc hq ((State.expired_iff (Txn.isHost_of_host ht)).mpr ⟨d, hd, hnow⟩)
  · rw [hplaced]
    refine giveBack_placed place (fun _ => hc) hq (Txn.isOrphan_of_host ht) ?_
    rw [← Bool.not_eq_true, State.expired_iff (Txn.isHost_of_host ht)]
    rintro ⟨d, hd', hnow⟩
    exact absurd hnow (Nat.not_le.mpr (hd d hd'))
  · rw [hplaced]
    have hh := Txn.isHost_of_poll ht
    exact giveBack_placed place (by simp [hh]) hq ((Txn.isOrphan_of_poll ht).trans ho) (State.expired_of_poll hh)

end Sys2Proof.Machine
end

section
/-! SUPPORT. Selection, and the moves of a directory entry. -/

namespace Sys2Proof.Machine

/-! ### Selection -/

theorem dueProbe_eq_some_iff (s : State) (b : BusId) (h : Handle) :
    s.dueProbe b = some h ↔
      (∃ e, s.entry h = some e ∧ e.bus = b ∧ e.probe = .due) ∧
      ∀ k, k < h → ∀ f, s.entry k = some f → f.bus = b → f.probe ≠ .due := by
  have hp : ∀ k : Handle, (match s.entry k with
      | some e => e.bus == b && e.probe == .due
      | none => false) = true ↔ ∃ e, s.entry k = some e ∧ e.bus = b ∧ e.probe = .due := fun k => by
    cases s.entry k <;> simp
  unfold State.dueProbe allHandles
  rw [← Fin.find?_eq_find?_finRange, Fin.find?_eq_some_iff]
  refine and_congr (hp h) (forall₂_congr fun k _ => ?_)
  rw [← Bool.not_eq_true]
  refine (not_congr (hp k)).trans ?_
  simp only [not_exists, not_and]

theorem dueProbe_eq_none_iff (s : State) (b : BusId) :
    s.dueProbe b = none ↔ ∀ h e, s.entry h = some e → e.bus = b → e.probe ≠ .due := by
  unfold State.dueProbe allHandles
  rw [List.find?_eq_none]
  simp only [List.mem_finRange, true_implies]
  refine forall_congr' fun h => ?_
  cases s.entry h <;> simp

/-- The first QUEUED record of a sub-list is the one taken, and the others keep their order. -/
theorem takeQueued_of_split {before after : List Txn} {t : Txn} (ht : t.notBefore = none)
    (hb : ∀ u ∈ before, u.notBefore ≠ none) : takeQueued (before ++ t :: after) = some (t, before ++ after) := by
  induction before with
  | nil => simp [takeQueued, ht]
  | cons u us ih =>
    obtain ⟨hu, hus⟩ := List.forall_mem_cons.mp hb
    simp [takeQueued, hu, ih hus]

theorem takeQueued_waiting {l : List Txn} (h : ∀ u ∈ l, u.notBefore ≠ none) : takeQueued l = none :=
  takeQueued_none.mpr fun u hu => Option.isSome_iff_ne_none.mpr (h u hu)

section Choice
variable {x : Bus} {before after : List Txn} {t : Txn}

theorem chooseRecord_urgent (hl : x.urgent = before ++ t :: after) (ht : t.notBefore = none)
    (hb : ∀ u ∈ before, u.notBefore ≠ none) (hr : x.urgentRun < 8 ∨ ∀ u ∈ x.routine, u.notBefore ≠ none) :
    x.chooseRecord = some (t, { x with urgent := before ++ after }) := by
  rw [Bus.chooseRecord, hl, takeQueued_of_split ht hb]
  by_cases hrun : Config.urgentRunLimit ≤ x.urgentRun
  · rw [if_pos hrun, takeQueued_waiting (hr.resolve_left (Nat.not_lt.mpr hrun))]
    rfl
  · rw [if_neg hrun]
    rfl

theorem chooseRecord_routine (hl : x.routine = before ++ t :: after) (ht : t.notBefore = none)
    (hb : ∀ u ∈ before, u.notBefore ≠ none) (hr : 8 ≤ x.urgentRun ∨ ∀ u ∈ x.urgent, u.notBefore ≠ none) :
    x.chooseRecord = some (t, { x with routine := before ++ after }) := by
  rw [Bus.chooseRecord, hl, takeQueued_of_split ht hb]
  by_cases hrun : Config.urgentRunLimit ≤ x.urgentRun
  · rw [if_pos hrun]
    rfl
  · rw [if_neg hrun, takeQueued_waiting (hr.resolve_left hrun)]
    rfl

theorem chooseRecord_none (h : ∀ u ∈ x.urgent ++ x.routine, u.notBefore ≠ none) : x.chooseRecord = none := by
  have hu := takeQueued_waiting fun u hu => h u (List.mem_append_left _ hu)
  have hr := takeQueued_waiting fun u hu => h u (List.mem_append_right _ hu)
  rw [Bus.chooseRecord, hu, hr]
  exact ite_self _

end Choice

section Select
variable {s : State} {b : BusId}

theorem select_not_idle (h : (s.bus b).engine ≠ .idle none) : s.select b = s := if_neg h

theorem select_probe (hi : (s.bus b).engine = .idle none) {h : Handle} {e : Entry} (he : s.entry h = some e)
    (hd : s.dueProbe b = some h) :
    s.select b = (s.setEntry h (some { e with probe := .issued })).setBus b
      { s.bus b with engine := .idle (some (.probe h)) } := by
  rw [State.select, if_pos hi, hd]
  dsimp only
  rw [he]
  rfl

theorem select_record (hi : (s.bus b).engine = .idle none) (hd : s.dueProbe b = none) {t : Txn} {x : Bus}
    (hc : (s.bus b).chooseRecord = some (t, x)) :
    s.select b = s.setBus b { x with engine := .idle (some (.record { t with progress := Progress.zero })) } := by
  rw [State.select, if_pos hi, hd, hc]

theorem select_nothing (hd : s.dueProbe b = none) (hc : (s.bus b).chooseRecord = none) : s.select b = s := by
  rw [State.select, hd, hc]
  exact ite_self _

end Select

/-- Settles O23: the due probe of lowest handle, else the record that R12 chooses. -/
theorem selectionChoosesTheNextWork : Obligations.SelectionChoosesTheNextWork := by
  intro s b
  refine ⟨select_not_idle, fun hi => ⟨fun h e he hb hp hlow => ?_, fun hdue =>
    ⟨fun before t after hl ht hbefore hr => ?_, fun before t after hl ht hbefore hr => ?_, fun hw => ?_⟩⟩⟩
  · exact select_probe hi he ((dueProbe_eq_some_iff s b h).mpr ⟨⟨e, he, hb, hp⟩, fun k hk f => hlow k f hk⟩)
  · exact select_record hi ((dueProbe_eq_none_iff s b).mpr hdue) (chooseRecord_urgent hl ht hbefore hr)
  · exact select_record hi ((dueProbe_eq_none_iff s b).mpr hdue) (chooseRecord_routine hl ht hbefore hr)
  · exact select_nothing ((dueProbe_eq_none_iff s b).mpr hdue) (chooseRecord_none hw)

/-! ### Address results and probe results -/

section Results
variable {s : State} {h : Handle} {e : Entry}

theorem addressAcknowledged_quarantined (he : s.entry h = some e) (hq : e.state = .quarantined) :
    s.addressAcknowledged h = s := by
  rw [State.addressAcknowledged, he]
  dsimp only
  rw [hq]

theorem addressAcknowledged_moves (he : s.entry h = some e) (hq : e.state ≠ .quarantined) :
    s.addressAcknowledged h = s.setEntry h
      (some { e with state := .present, refusals := 0, changed := e.changed || decide (e.state ≠ .present) }) := by
  rw [State.addressAcknowledged, he]
  dsimp only
  cases hs : e.state with
  | quarantined => exact absurd hs hq
  | new => simp
  | suspect => simp
  | present => simp [← hs]

theorem addressRefused_quarantined (he : s.entry h = some e) (hq : e.state = .quarantined) : s.addressRefused h = s := by
  rw [State.addressRefused, he]
  dsimp only
  rw [hq]

theorem addressRefused_suspect (he : s.entry h = some e) (hq : e.state ≠ .quarantined)
    (hn : rise 255 e.refusals < e.threshold) :
    s.addressRefused h = s.setEntry h
      (some { e with state := .suspect, refusals := rise 255 e.refusals
                     changed := e.changed || decide (e.state ≠ .suspect) }) := by
  have hn' : satSucc 255 e.refusals < e.threshold := hn
  rw [State.addressRefused, he]
  dsimp only
  cases hs : e.state with
  | quarantined => exact absurd hs hq
  | new => simp [hn']; rfl
  | present => simp [hn']; rfl
  | suspect => simp [hn', ← hs]; rfl

theorem addressRefused_quarantines (he : s.entry h = some e) (hq : e.state ≠ .quarantined)
    (hn : e.threshold ≤ rise 255 e.refusals) :
    s.addressRefused h = s.quarantine h e (rise 255 e.refusals) := by
  have hn' : ¬ satSucc 255 e.refusals < e.threshold := Nat.not_lt.mpr hn
  rw [State.addressRefused, he]
  dsimp only
  cases hs : e.state with
  | quarantined => exact absurd hs hq
  | new => exact if_neg hn'
  | present => exact if_neg hn'
  | suspect => exact if_neg hn'

variable {b : BusId}

theorem giveUpProbe_unawaited (hn : ∀ e, s.entry h = some e → e.probe ≠ .issued ∨ e.bus ≠ b) :
    s.giveUpProbe b h = s := by
  rcases giveUpProbe_cases s b h with hs | ⟨e, he, hp, hb, -⟩
  · exact hs
  · rcases hn e he with h' | h'
    · exact absurd hp h'
    · exact absurd hb h'

theorem giveUpProbe_awaited (he : s.entry h = some e) (hp : e.probe = .issued) (hb : e.bus = b) :
    s.giveUpProbe b h = s.setEntry h (some { e with probe := .due }) := by
  rw [State.giveUpProbe, he]
  exact if_pos ⟨hp, hb⟩

theorem probeResult_unawaited (hn : ∀ e, s.entry h = some e → e.probe ≠ .issued ∨ e.bus ≠ b) (ack : AckBit) :
    s.probeResult b h ack = s := by
  unfold State.probeResult
  split
  · rfl
  · rename_i e he
    refine if_neg fun hi => ?_
    rcases hn e he with h' | h'
    · exact h' hi.1
    · exact h' hi.2

theorem probeResult_acknowledged (he : s.entry h = some e) (hp : e.probe = .issued) (hb : e.bus = b) :
    s.probeResult b h .acknowledged = s.release h e := by
  rw [State.probeResult, he]
  exact if_pos ⟨hp, hb⟩

theorem probeResult_refused (he : s.entry h = some e) (hp : e.probe = .issued) (hb : e.bus = b) :
    s.probeResult b h .refused =
      s.setEntry h (some { e with refusals := rise 255 e.refusals, probe := .timing e.probeInterval }) := by
  rw [State.probeResult, he]
  exact if_pos ⟨hp, hb⟩

end Results

/-- Settles O24: by the entry's state, and by whether the entry waits on this engine's probe. -/
theorem addressAndProbeResultsMoveTheEntry : Obligations.AddressAndProbeResultsMoveTheEntry :=
  ⟨fun _ _ _ he =>
    ⟨fun hq => ⟨addressAcknowledged_quarantined he hq, addressRefused_quarantined he hq⟩, fun hq =>
      ⟨addressAcknowledged_moves he hq, addressRefused_suspect he hq, addressRefused_quarantines he hq⟩⟩,
   fun _ _ _ =>
    ⟨fun hn => ⟨giveUpProbe_unawaited hn, probeResult_unawaited hn⟩, fun _ he hp hb =>
      ⟨giveUpProbe_awaited he hp hb, probeResult_acknowledged he hp hb, probeResult_refused he hp hb⟩⟩⟩

end Sys2Proof.Machine
end

section
/-! SUPPORT. Decisions one after the other, and what a quarantine takes and gives back. -/

namespace Sys2Proof.Machine

/-! ### Decisions one after the other -/

/-- Where a decision puts its record is read from the store and the wait list alone. -/
theorem conclude_store_congr {s u : State} (hs : s.store = u.store) (hw : s.waitList = u.waitList) (t : Txn)
    (o : TxnOutcome) :
    (s.conclude t o).store = (u.conclude t o).store ∧ (s.conclude t o).waitList = (u.conclude t o).waitList := by
  unfold State.conclude
  split
  · unfold State.deliver
    rw [hs, hw]
    dsimp only
    split
    · exact ⟨rfl, rfl⟩
    · exact ⟨rfl, rfl⟩
  · exact ⟨hs, hw⟩
  · exact ⟨hs, hw⟩

theorem concludeEach_store_congr {s u : State} (hs : s.store = u.store) (hw : s.waitList = u.waitList) (ts : List Txn)
    (o : TxnOutcome) :
    (s.concludeEach ts o).store = (u.concludeEach ts o).store ∧
    (s.concludeEach ts o).waitList = (u.concludeEach ts o).waitList := by
  unfold State.concludeEach
  induction ts generalizing s u with
  | nil => exact ⟨hs, hw⟩
  | cons t ts ih =>
    obtain ⟨hs', hw'⟩ := conclude_store_congr hs hw t.discarded o
    exact ih hs' hw'

theorem decideAside_isHost {t : Txn} (ht : t.isHost = true) (s : State) (o : TxnOutcome) :
    s.decideAside o t = s.conclude t.discarded o := by
  cases ho : t.origin with
  | host k => exact decideAside_host ho o
  | poll i orphaned => simp [Txn.isHost, ho] at ht

/-- HOST records decided in place of a return, one after the other. -/
theorem foldl_decideAside {ts : List Txn} (h : ∀ t ∈ ts, t.isHost = true) (s : State) (o : TxnOutcome) :
    ts.foldl (fun u t => u.decideAside o t) s = s.concludeEach ts o :=
  List.foldl_ext _ _ _ fun u t ht => decideAside_isHost (h t ht) u o

/-- Decisions on HOST records change the store and the wait list alone. -/
theorem concludeEach_frame {ts : List Txn} (h : ∀ t ∈ ts, t.isHost = true) (s : State) (o : TxnOutcome) :
    s.concludeEach ts o =
      { s with store := (s.concludeEach ts o).store, waitList := (s.concludeEach ts o).waitList } := by
  obtain ⟨st, wl, hf⟩ := decideAside_foldl_frame o ts s
  rw [← foldl_decideAside h, hf]

/-! ### Quarantine -/

theorem keeping_congr {x : Bus} {p q : Txn → Bool} (h : ∀ t, p t = q t) : keeping x p = keeping x q :=
  congrArg (keeping x) (funext h)

/-- The records a quarantine decides: the HOST records of its entry, in queue order. -/
def State.claimed (s : State) (b : BusId) (h : Handle) : List Txn :=
  (s.bus b).queue.filter fun r => decide (r.handle = h) && r.isHost

theorem claimed_isHost (s : State) (b : BusId) (h : Handle) : ∀ t ∈ s.claimed b h, t.isHost = true := fun t ht => by
  have := (List.mem_filter.mp ht).2
  simp_all

theorem claimQuarantine_eq (s : State) (b : BusId) (h : Handle) :
    s.claimQuarantine b h =
      { s.setBus b (keeping (s.bus b) fun r => decide (r.handle ≠ h)) with
        store := (s.concludeEach (s.claimed b h) .targetOut).store
        waitList := (s.concludeEach (s.claimed b h) .targetOut).waitList } := by
  have hclaim : ((s.bus b).queue.filter fun t => t.handle == h && t.isHost) = s.claimed b h :=
    List.filter_congr fun t _ => by simp [beq_eq_decide]
  have hdrop : (s.bus b).dropQueued (fun t => t.handle == h) = keeping (s.bus b) fun r => decide (r.handle ≠ h) :=
    keeping_congr fun t => by simp [beq_eq_decide]
  unfold State.claimQuarantine
  dsimp only
  rw [hclaim, hdrop, foldl_decideAside (claimed_isHost s b h), concludeEach_frame (claimed_isHost s b h)]
  obtain ⟨hs, hw⟩ := concludeEach_store_congr (s := s.setBus b (keeping (s.bus b) fun r => decide (r.handle ≠ h)))
    (u := s) rfl rfl (s.claimed b h) .targetOut
  rw [hs, hw]

/-- The entry as it enters QUARANTINED. -/
def Entry.out (e : Entry) (n : Nat) : Entry :=
  { e with state := .quarantined, refusals := n, probe := .timing e.probeInterval, changed := true }

/-- The entry as its quarantine ends. -/
def Entry.back (e : Entry) : Entry := { e with state := .present, refusals := 0, probe := .none, changed := true }

theorem quarantine_eq (s : State) (h : Handle) (e : Entry) (n : Nat) :
    s.quarantine h e n = ((s.setEntry h (some (e.out n))).claimQuarantine e.bus h).pausePolls h := rfl

theorem release_eq (s : State) (h : Handle) (e : Entry) :
    s.release h e = (s.setEntry h (some e.back)).resumePolls h := rfl

section Quarantine
variable (s : State) (h : Handle) (e : Entry) (n : Nat)

theorem entry_quarantine (k : Handle) :
    (s.quarantine h e n).entry k = if k = h then some (e.out n) else s.entry k := by
  rw [quarantine_eq, claimQuarantine_eq]
  show (s.setEntry h (some (e.out n))).entry k = _
  rw [State.entry_setEntry]
  simp only [eq_comm (a := h)]

theorem bus_quarantine (b : BusId) :
    (s.quarantine h e n).bus b =
      if b = e.bus then keeping (s.bus b) (fun r => decide (r.handle ≠ h)) else s.bus b := by
  rw [quarantine_eq, claimQuarantine_eq]
  show (State.setBus (s.setEntry h (some (e.out n))) e.bus (keeping (s.bus e.bus) _)).bus b = _
  rw [State.bus_setBus]
  by_cases hb : b = e.bus
  · rw [if_pos hb, if_pos hb.symm, hb]
  · rw [if_neg hb, if_neg (Ne.symm hb)]
    rfl

theorem poll_quarantine (i : PollIndex) :
    (s.quarantine h e n).poll i = (s.poll i).map fun p =>
      match p.state with
      | .active _ => if p.handle = h then { p with state := .paused, changed := true } else p
      | .paused => p := by
  rw [quarantine_eq, claimQuarantine_eq, State.pausePolls, State.poll_mapPolls]
  rfl

theorem store_quarantine :
    (s.quarantine h e n).store = (s.concludeEach (s.claimed e.bus h) .targetOut).store ∧
    (s.quarantine h e n).waitList = (s.concludeEach (s.claimed e.bus h) .targetOut).waitList := by
  rw [quarantine_eq, claimQuarantine_eq]
  exact concludeEach_store_congr (s := s.setEntry h (some (e.out n))) (u := s) rfl rfl (s.claimed e.bus h) .targetOut

theorem entry_release (k : Handle) : (s.release h e).entry k = if k = h then some e.back else s.entry k := by
  show (s.setEntry h (some e.back)).entry k = _
  rw [State.entry_setEntry]
  simp only [eq_comm (a := h)]

theorem poll_release (i : PollIndex) :
    (s.release h e).poll i = (s.poll i).map fun p =>
      match p.state with
      | .active _ => p
      | .paused => if p.handle = h then { p with state := .active p.period, changed := true } else p := by
  rw [release_eq, State.resumePolls, State.poll_mapPolls]
  rfl

end Quarantine

/-- Settles O25: the entry, the queue of its bus, its polls, and the decisions on the HOST records that leave. -/
theorem quarantineBeginsAndEnds : Obligations.QuarantineBeginsAndEnds := by
  intro s h e _
  refine ⟨fun n => ⟨_, rfl, ?_, entry_quarantine s h e n, bus_quarantine s h e n, poll_quarantine s h e n,
    store_quarantine s h e n⟩, ⟨_, rfl, rfl, entry_release s h e, poll_release s h e⟩⟩
  obtain ⟨st, wl, bs, dir, ps, hf⟩ := quarantine_frame s h e n
  rw [hf]

end Sys2Proof.Machine
end

section
/-! SUPPORT. Tickets: the search from the counter upward passes over tickets in use alone, and ends before it has gone round
(R6). -/

namespace Sys2Proof.Machine

/-- The ticket after `k` as R6 says it. -/
def nextValue (k : Nat) : Nat := if k = 65535 then 1 else k + 1

theorem ticketAfter_eq {k : Nat} (hk : k ≤ 65535) : ticketAfter k = nextValue k := by
  unfold ticketAfter nextValue
  split <;> split <;> omega

/-- The values run through 1 to 65535 round and round. -/
theorem nextValue_iterate {k : Nat} (h1 : 1 ≤ k) (h2 : k ≤ 65535) (n : Nat) :
    nextValue^[n] k = (k - 1 + n) % 65535 + 1 := by
  induction n with
  | zero =>
    rw [Nat.add_zero, Nat.mod_eq_of_lt (by omega)]
    exact (Nat.sub_add_cancel h1).symm
  | succ n ih =>
    rw [Function.iterate_succ_apply', ih, nextValue]
    split <;> omega

/-- The search stops at a value not in use, or has used its fuel, and passes over values in use alone. -/
theorem freeTicket_cases (used : List Nat) (fuel : Nat) : ∀ {k : Nat}, 1 ≤ k → k ≤ 65535 →
    ∃ n, n ≤ fuel ∧ freeTicket used fuel k = nextValue^[n] k ∧ (∀ m < n, nextValue^[m] k ∈ used) ∧
      (n = fuel ∨ freeTicket used fuel k ∉ used) := by
  induction fuel with
  | zero => exact fun _ _ => ⟨0, Nat.le_refl 0, rfl, fun m hm => absurd hm (Nat.not_lt_zero m), .inl rfl⟩
  | succ fuel ih =>
    intro k h1 h2
    by_cases hk : k ∈ used
    · have hf : freeTicket used (fuel + 1) k = freeTicket used fuel (nextValue k) := by
        rw [freeTicket, if_pos (by simpa using hk), ticketAfter_eq h2]
      have hrange : 1 ≤ nextValue k ∧ nextValue k ≤ 65535 := by
        unfold nextValue
        split <;> omega
      obtain ⟨n, hn, heq, hpass, hend⟩ := ih hrange.1 hrange.2
      refine ⟨n + 1, Nat.succ_le_succ hn, hf.trans heq, fun m hm => ?_, ?_⟩
      · cases m with
        | zero => exact hk
        | succ m => exact hpass m (Nat.lt_of_succ_lt_succ hm)
      · rw [hf]
        exact hend.imp (congrArg (· + 1)) id
    · have hf : freeTicket used (fuel + 1) k = k := by
        rw [freeTicket, if_neg (by simpa using hk)]
      exact ⟨0, Nat.zero_le _, hf, fun m hm => absurd hm (Nat.not_lt_zero m), .inr (by rwa [hf])⟩

/-- Not all of `n + 1` successive values are in use when at most `n` are. -/
theorem not_all_used {used : List Nat} {k : Nat} (h1 : 1 ≤ k) (h2 : k ≤ 65535) (hu : used.length < 65535)
    (hall : ∀ m ≤ used.length, nextValue^[m] k ∈ used) : False := by
  have hinj : Set.InjOn (fun m => nextValue^[m] k) (Finset.range (used.length + 1)) := by
    intro a ha b hb hab
    rw [Finset.coe_range, Set.mem_Iio] at ha hb
    simp only [nextValue_iterate h1 h2] at hab
    omega
  have hsub : (Finset.range (used.length + 1)).image (fun m => nextValue^[m] k) ⊆ used.toFinset := by
    intro v hv
    obtain ⟨m, hm, rfl⟩ := Finset.mem_image.mp hv
    exact List.mem_toFinset.mpr (hall m (Nat.lt_succ_iff.mp (Finset.mem_range.mp hm)))
  have hcard := Finset.card_le_card hsub
  rw [Finset.card_image_of_injOn hinj, Finset.card_range] at hcard
  exact absurd (hcard.trans used.toFinset_card_le) (by omega)

/-- Settles O26: the search cannot use all its fuel without passing more values than are in use. -/
theorem ticketIssuedIsTheFirstFree : Obligations.TicketIssuedIsTheFirstFree := by
  intro s h1 h2 hu
  obtain ⟨n, hn, heq, hpass, hend⟩ := freeTicket_cases s.ticketsInUse s.ticketsInUse.length h1 h2
  have hfree : s.issueTicket ∉ s.ticketsInUse := by
    rcases hend with rfl | hend
    · intro hmem
      refine not_all_used h1 h2 hu fun m hm => ?_
      rcases Nat.lt_or_eq_of_le hm with hm | rfl
      · exact hpass m hm
      · rw [← heq]
        exact hmem
    · exact hend
  have hvalue : s.issueTicket = (s.nextTicket - 1 + n) % 65535 + 1 := heq.trans (nextValue_iterate h1 h2 n)
  exact ⟨hfree, by omega, by omega, n, heq, hpass⟩

end Sys2Proof.Machine
end

section
/-! SUPPORT. The passing of time: every timer, and the half of a clock period that is over with it. -/

namespace Sys2Proof.Machine

theorem entry_pass (s : State) (us : Nat) (h : Handle) :
    (s.pass us).entry h = (s.entry h).map (Entry.pass (s.msIn us)) := by
  simp [State.pass, State.entry]

theorem poll_pass (s : State) (us : Nat) (i : PollIndex) :
    (s.pass us).poll i = (s.poll i).map (Poll.pass (s.msIn us)) := by
  simp [State.pass, State.poll]

/-- The address byte a start hold that ends now begins, and any byte where there is none. -/
def State.byteBegun (s : State) (x : Bus) : Byte :=
  match x.engine with
  | .driving .start w => s.addressSent x w
  | _ => 0x00#8

theorem addresses_byteBegun {s : State} {b : BusId} {w : Work} (hw : (s.bus b).engine = .driving .start w) :
    s.addresses b w (s.byteBegun (s.bus b)) := by
  rw [State.byteBegun, hw]
  exact addresses_sent s b w

theorem pass_driving {x : Bus} {p : DrivePhase} {w : Work} (he : x.engine = .driving p w) (byte : Work → Byte)
    (us ms : Nat) :
    x.pass byte us ms = { (if us = 0 then x else x.halfOver byte) with
      stretchTimer := min x.stretchLimit (x.stretchTimer + ms)
      monitor := { x.monitor with freeTimer := (if x.monitor.bothHigh = true
        then min x.monitor.freeTime (x.monitor.freeTimer + us) else x.monitor.freeTimer) } } := by
  unfold Bus.pass
  dsimp only
  split <;> simp_all

theorem pass_clearing {x : Bus} {kept : Option Txn} {n : Nat} {stage : ClearingStage}
    (he : x.engine = .clearing kept n stage) (byte : Work → Byte) (us ms : Nat) :
    x.pass byte us ms = { (if us = 0 then x else x.halfOver byte) with
      stretchTimer := min x.stretchLimit (x.stretchTimer + ms)
      monitor := { x.monitor with freeTimer := (if x.monitor.bothHigh = true
        then min x.monitor.freeTime (x.monitor.freeTimer + us) else x.monitor.freeTimer) } } := by
  unfold Bus.pass
  dsimp only
  split <;> simp_all

theorem pass_driven {x : Bus} (he : x.engine.value = 0x03#8 ∨ x.engine.value = 0x05#8) (byte : Work → Byte)
    (us ms : Nat) :
    x.pass byte us ms = { (if 0 < us then x.halfOver byte else x) with
      stretchTimer := min x.stretchLimit (x.stretchTimer + ms)
      monitor := { x.monitor with freeTimer := (if x.monitor.bothHigh = true
        then min x.monitor.freeTime (x.monitor.freeTimer + us) else x.monitor.freeTimer) } } := by
  have hus : (if 0 < us then x.halfOver byte else x) = if us = 0 then x else x.halfOver byte := by
    by_cases h : us = 0
    · rw [if_pos h, if_neg (by omega)]
    · rw [if_neg h, if_pos (by omega)]
  rw [hus]
  rcases he with he | he
  · obtain ⟨p, w, he⟩ := (Engine.value_driving_iff _).mp he
    exact pass_driving he byte us ms
  · obtain ⟨kept, n, stage, he⟩ := (Engine.value_clearing_iff _).mp he
    exact pass_clearing he byte us ms

theorem pass_listening {x : Bus} (he : x.engine.value = 0x02#8 ∨ x.engine.value = 0x04#8) (byte : Work → Byte)
    (us ms : Nat) :
    x.pass byte us ms = { x with monitor := { x.monitor with
      freeTimer := (if x.monitor.bothHigh = true
        then min x.monitor.freeTime (x.monitor.freeTimer + us) else x.monitor.freeTimer)
      stuckTimer := (if x.monitor.bothHigh = true
        then x.monitor.stuckTimer else min x.monitor.stuckLimit (x.monitor.stuckTimer + ms)) } } := by
  unfold Bus.pass
  dsimp only
  split <;> simp_all [Engine.value]

theorem pass_still {x : Bus} (he : x.engine.value = 0x00#8 ∨ x.engine.value = 0x01#8 ∨ x.engine.value = 0x06#8)
    (byte : Work → Byte) (us ms : Nat) :
    x.pass byte us ms = { x with monitor := { x.monitor with freeTimer := (if x.monitor.bothHigh = true
      then min x.monitor.freeTime (x.monitor.freeTimer + us) else x.monitor.freeTimer) } } := by
  unfold Bus.pass
  dsimp only
  split <;> simp_all [Engine.value]

/-- What a half's end makes of a bus: a start hold is over, a clearing's start goes on to its stop, or clock is released. -/
theorem halfOver_eq (x : Bus) (byte : Work → Byte) :
    x.halfOver byte = match x.engine with
      | .driving .start w => inAddress x w (byte w)
      | .clearing kept n .starting =>
        { x with engine := .clearing kept n .stopping, clockOut := .released, dataOut := .released }
      | .driving _ _ => { x with clockOut := .released }
      | .clearing _ _ _ => { x with clockOut := .released }
      | _ => x := by
  unfold Bus.halfOver
  cases he : x.engine with
  | driving p w =>
    cases p with
    | start => exact holdOver_start he byte
    | _ => rfl
  | clearing kept n stage => cases stage <;> rfl
  | _ => rfl

/-- Settles O27: bus by bus, by what the engine does with time. -/
theorem timePassesForEveryTimer : Obligations.TimePassesForEveryTimer := by
  intro s us ms
  refine ⟨s.pass us, rfl, rfl, rfl, fun h => ?_, fun i => poll_pass s us i, fun b => ?_⟩
  · rw [entry_pass]
    refine congrFun (congrArg Option.map (funext fun e => ?_)) (s.entry h)
    unfold Entry.pass
    cases e.probe <;> rfl
  · refine ⟨s.byteBegun (s.bus b), fun w hw => addresses_byteBegun hw, ?_⟩
    have hms : s.msIn us = ms := rfl
    rw [bus_pass, hms]
    cases he : (s.bus b).engine with
    | driving p w =>
      rw [pass_driven (.inl (by rw [he]; rfl)), halfOver_eq, he]
      cases p <;> simp [State.byteBegun, he, Engine.value]
    | clearing kept n stage =>
      rw [pass_driven (.inr (by rw [he]; rfl)), halfOver_eq, he]
      cases stage <;> simp [Engine.value]
    | occupied hearing =>
      rw [pass_listening (.inl (by rw [he]; rfl))]
      cases hb : (s.bus b).monitor.bothHigh <;> simp [Engine.value, he, hb]
    | answering r =>
      rw [pass_listening (.inr (by rw [he]; rfl))]
      cases hb : (s.bus b).monitor.bothHigh <;> simp [Engine.value, he, hb]
    | off =>
      rw [pass_still (.inl (by rw [he]; rfl))]
      simp [Engine.value, he]
    | idle w =>
      rw [pass_still (.inr (.inl (by rw [he]; rfl)))]
      simp [Engine.value, he]
    | faulted =>
      rw [pass_still (.inr (.inr (by rw [he]; rfl)))]
      simp [Engine.value, he]

end Sys2Proof.Machine
end

section
/-! SUPPORT. SUBMIT accepted, CANCEL, FLUSH and FETCH. -/

namespace Sys2Proof.Machine

/-! ### SUBMIT -/

/-- The state a SUBMIT that passes every check leads to (R15). -/
def State.submitted (s : State) (v : SubmitValues) (e : Entry) : State :=
  (({ s with nextTicket := ticketAfter s.issueTicket } : State).setBus e.bus
    ((s.bus e.bus).joinTail (submittedRecord s v e s.issueTicket))).select e.bus

theorem acceptSubmit_ok {s : State} {v : SubmitValues} {e : Entry} (he : s.entry v.handle = some e)
    (hq : e.state ≠ .quarantined) (hw : (s.bus e.bus).engine.refusesWork = false) (hroom : (s.bus e.bus).room ≠ 0)
    (hfree : s.freeRecords ≠ 0) : acceptSubmit v s = (s.submitted v e, Answer.ok (bytes16 s.issueTicket)) := by
  simp only [acceptSubmit, he, hq, hw, hroom, hfree, if_false, Bool.false_eq_true]
  rfl

/-- Settles O28: with no check failing the record is the one the fields and the entry give. -/
theorem submitQueuesTheTransaction : Obligations.SubmitQueuesTheTransaction := by
  intro s tag f h cls segments e hs hf hm he hq hoff hfaulted hplaces hpool record
  have hw : (s.bus e.bus).engine.refusesWork = false := by
    simp [Bool.eq_false_iff, Engine.refusesWork_iff, hoff, hfaulted]
  have hroom : (s.bus e.bus).room ≠ 0 := mt (Bus.room_eq_zero_iff _).mp (by omega)
  have hfree : s.freeRecords ≠ 0 := mt (State.freeRecords_eq_zero_iff s).mp (by omega)
  obtain ⟨-, -, -, -, -, hlong⟩ := id hf
  refine replies_of_owner (owner := answerSubmit f.body) rfl hs hlong ?_ (.inl rfl)
  rw [answerSubmit_of_means hf hm]
  have hrecord : submittedRecord s.taking
      { handle := h, cls := cls, deadline := f.deadline, attempts := f.attempts, segments := segments } e s.issueTicket =
        record := by
    cases ha : f.attempts <;> simp [record, submittedRecord, ha] <;> exact ⟨rfl, rfl⟩
  refine (acceptSubmit_ok (s := s.taking) (v := ⟨h, cls, f.deadline, f.attempts, segments⟩) he hq hw hroom hfree).trans ?_
  rw [State.submitted, Bus.joinTail_eq, ← hrecord]
  rfl

/-! ### CANCEL and FLUSH -/

section Cancel
variable {s : State} {k : Nat} {b : BusId}

theorem dropTicket_eq (x : Bus) (k : Nat) :
    (x.dropQueued fun u => u.hasTicket k) = keeping x fun u => decide (u.ticket? ≠ some k) :=
  keeping_congr fun u => by
    show (!u.hasTicket k) = _
    rw [decide_not, ← Bool.decide_coe (u.hasTicket k), decide_eq_decide.mpr (u.hasTicket_iff k)]

theorem decideAside_ticket {t : Txn} (ht : t.hasTicket k = true) (u : State) (o : TxnOutcome) :
    u.decideAside o t = u.conclude t.discarded o := by
  refine decideAside_isHost ?_ u o
  unfold Txn.hasTicket at ht
  unfold Txn.isHost
  split at ht
  · rfl
  · cases ht

theorem cancelTicket_queued {t : Txn} (hf : s.findTicket k = .queued b t) :
    cancelTicket k s =
      ((s.setBus b (keeping (s.bus b) fun u => decide (u.ticket? ≠ some k))).conclude t.discarded .cancelled,
       Answer.ok [0x01#8]) := by
  have ht : t.hasTicket k = true := by simpa using List.find?_some (findTicket_queued hf)
  rw [cancelTicket, hf]
  dsimp only
  rw [dropTicket_eq, decideAside_ticket ht]
  rfl

theorem cancelTicket_active (hf : s.findTicket k = .active b) :
    cancelTicket k s =
      (s.setBus b { s.bus b with engine := (s.bus b).engine.mapRecord fun t => { t with cancelPending := true } },
       Answer.ok [0x03#8]) := by
  rw [cancelTicket, hf]
  rfl

theorem cancelTicket_tooLate (hf : s.findTicket k = .decided ∨ s.findTicket k = .stored) :
    cancelTicket k s = (s, Answer.refuse .tooLate) := by
  rcases hf with hf | hf
  · rw [cancelTicket, hf]
  · rw [cancelTicket, hf]

theorem cancelTicket_unknown (hf : s.findTicket k = .nowhere) : cancelTicket k s = (s, Answer.refuse .unknownTicket) := by
  rw [cancelTicket, hf]

end Cancel

theorem queue_filter (x : Bus) (p : Txn → Bool) : x.queue.filter p = x.urgent.filter p ++ x.routine.filter p :=
  List.filter_append ..

theorem flushBus_eq (s : State) (b : BusId) :
    s.flushBus b = (s.setBus b (keeping (s.bus b) fun t => !t.isHost)).concludeEach
      ((s.bus b).urgent.filter Txn.isHost ++ (s.bus b).routine.filter Txn.isHost) .cancelled := by
  rw [State.flushBus, ← queue_filter, foldl_decideAside fun t ht => (List.mem_filter.mp ht).2]
  rfl

/-- Settles O30: CANCEL by what the search answers, FLUSH by the HOST records in queue order. -/
theorem cancelAndFlushDecideRecords : Obligations.CancelAndFlushDecideRecords := by
  refine ⟨fun s tag high low hs => ?_, fun s tag n hs => ⟨fun hn => ?_, fun b hn => ?_⟩⟩
  · intro k replies
    have hanswer (hk : k ≠ 0) : answerCancel [high, low] s.taking = cancelTicket k s.taking := if_neg hk
    refine ⟨fun hk => ?_, fun hk => ⟨fun b t hf => ?_, fun b hf => ?_, fun hf => ?_, fun hf => ?_⟩⟩
    · exact replies_refuse (owner := answerCancel [high, low]) rfl hs (by simp) (if_pos hk)
    · exact replies_of_owner (owner := answerCancel [high, low]) rfl hs (by simp)
        ((hanswer hk).trans (cancelTicket_queued hf)) (.inl rfl)
    · refine ⟨(s.bus b).engine.mapRecord fun t => { t with cancelPending := true },
        replies_of_owner (owner := answerCancel [high, low]) rfl hs (by simp)
          ((hanswer hk).trans (cancelTicket_active hf)) (.inl rfl), fun t he => ?_, fun p t he => ?_, fun t n g he => ?_⟩
      all_goals rw [he]; rfl
    · exact replies_refuse (owner := answerCancel [high, low]) rfl hs (by simp)
        ((hanswer hk).trans (cancelTicket_tooLate hf))
    · exact replies_refuse (owner := answerCancel [high, low]) rfl hs (by simp)
        ((hanswer hk).trans (cancelTicket_unknown hf))
  · refine replies_refuse (owner := answerFlush [n]) rfl hs (by simp) ?_
    rw [answerFlush, busOf?_eq_none hn]
  · refine replies_of_owner (owner := answerFlush [n]) rfl hs (by simp) ?_ (.inl rfl)
    rw [answerFlush, (busOf?_eq_some_iff n b).mpr hn]
    dsimp only
    rw [flushBus_eq, List.countP_eq_length_filter, queue_filter, List.length_append]
    rfl

/-! ### FETCH -/

/-- The longest run from the head within the room is what is taken. -/
theorem takeFitting_of_split {α : Type} {size : α → Nat} {taken stay : List α} : ∀ {max room : Nat},
    taken.length ≤ max → (taken.map size).sum ≤ room →
    (taken.length = max ∨ ∀ x ∈ stay.head?, room < (taken.map size).sum + size x) →
    takeFitting size max room (taken ++ stay) = (taken, stay) := by
  induction taken with
  | nil =>
    intro max room _ _ hend
    cases max with
    | zero => rfl
    | succ max =>
      cases stay with
      | nil => rfl
      | cons x rest =>
        have hx : room < size x := by simpa using hend
        exact if_neg (Nat.not_le.mpr hx)
  | cons x taken ih =>
    intro max room hlen hsum hend
    simp only [List.length_cons, List.map_cons, List.sum_cons] at hlen hsum hend
    obtain ⟨max, rfl⟩ : ∃ m, max = m + 1 := ⟨max - 1, by omega⟩
    have hrest := ih (max := max) (room := room - size x) (by omega) (by omega)
      (hend.imp (fun h => by omega) fun h y hy => by have := h y hy; omega)
    rw [List.cons_append, takeFitting, if_pos (by omega), hrest]

/-- The completion records of HOST records: one for each, with its ticket. -/
theorem completionsOf_hosts {ds : List Decided} (h : ∀ d ∈ ds, d.record.isHost = true) :
    List.Forall₂ (fun (d : Decided) (c : Completion) => d.record.origin = .host c.ticket ∧
      c = { ticket := c.ticket, handle := d.record.handle, outcome := d.outcome
            attemptsUsed := d.record.attemptsUsed, lostArbitrations := d.record.lostArbitrations
            segmentReached := d.record.progress.segmentsDone, bytesDone := d.record.progress.bytesDone
            readData := d.record.progress.readBytes }) ds (completionsOf ds) := by
  induction ds with
  | nil => exact .nil
  | cons d ds ih =>
    obtain ⟨hd, hds⟩ := List.forall_mem_cons.mp h
    cases ho : d.record.origin with
    | poll i orphaned => simp [Txn.isHost, ho] at hd
    | host k =>
      have hc : completionsOf (d :: ds) = completionOf d k :: completionsOf ds := by
        simp [completionsOf, Txn.ticket?, ho]
      rw [hc]
      exact .cons ⟨ho, rfl⟩ (ih hds)

theorem answerFetch_badValue {max : Byte} (hm : max.toNat = 0 ∨ 8 < max.toNat) (s : State) :
    answerFetch [max] s = (s, Answer.refuse .badValue) := if_neg (by omega)

/-- Settles O31: the run taken is the longest that fits, and the waiting records that move in are HOST records. -/
theorem fetchTakesFromTheHeadOfTheStore : Obligations.FetchTakesFromTheHeadOfTheStore := by
  intro s tag max hs
  refine ⟨fun hm => replies_refuse (owner := answerFetch [max]) rfl hs (by simp) (answerFetch_badValue hm s.taking),
    fun taken stay h1 h8 hw hstore hlen hsum hend => ?_⟩
  intro moved
  have hhosts : ∀ d ∈ moved, d.record.isHost = true := fun d hd => hw d (List.mem_of_mem_take hd)
  have harrived := completionsOf_hosts hhosts
  have hsplit : fetchSplit s.taking max.toNat = (taken, stay) := by
    show takeFitting completionSize max.toNat Config.recordBytes s.store = _
    rw [hstore]
    exact takeFitting_of_split hlen hsum hend
  refine ⟨completionsOf moved, harrived, ?_⟩
  refine replies_of_owner (owner := answerFetch [max]) rfl hs (by simp) ?_ (.inl rfl)
  have hleft : (stay ++ completionsOf moved).length + (s.waitList.drop taken.length).length =
      s.store.length + s.waitList.length - taken.length := by
    have hm : (completionsOf moved).length = moved.length := harrived.length_eq.symm
    rw [List.length_append, hm, hstore, List.length_append, List.length_take, List.length_drop]
    omega
  refine (if_pos ⟨h1, h8⟩).trans ?_
  rw [hsplit, ← hleft]
  rfl

end Sys2Proof.Machine
end

section
/-! SUPPORT. BUS_CONFIG, BUS_STATUS and BUS_RESET. -/

namespace Sys2Proof.Machine

/-! ### BUS_CONFIG -/

theorem speedOf?_eq_some_iff (b : Byte) (sp : SpeedClass) :
    speedOf? b = some sp ↔ b = (match sp with
      | .standard => 0x00#8
      | .fast => 0x01#8
      | .fastPlus => 0x02#8) := by
  unfold speedOf?
  cases sp <;> split_ifs <;> simp_all

/-- A BUS_CONFIG whose every field is in its range. -/
theorem busSettings_some {bus enable speed free stretch stuck : Byte} {b : BusId} {on : Bool} {sp : SpeedClass}
    (hb : bus.toNat = b.val) (he : switchOf? enable = some on) (hs : speedOf? speed = some sp) (hf : 1 ≤ free.toNat)
    (hr : 1 ≤ stretch.toNat) (hr' : stretch.toNat ≤ 100) (hk : 5 ≤ stuck.toNat) :
    busSettings bus enable speed free stretch stuck = some
      { bus := b, enable := on, speed := sp, freeTime := 10 * free.toNat, stretchLimit := stretch.toNat
        stuckLimit := stuck.toNat } := by
  rw [busSettings, (busOf?_eq_some_iff bus b).mpr hb, he, hs, Nat.mul_comm 10]
  exact if_pos ⟨hf, hr, hr', hk⟩

theorem busSettings_none {bus enable speed free stretch stuck : Byte}
    (h : 4 ≤ bus.toNat ∨ 2 ≤ enable.toNat ∨ 3 ≤ speed.toNat ∨ free.toNat = 0 ∨ stretch.toNat = 0 ∨ 100 < stretch.toNat ∨
      stuck.toNat < 5) : busSettings bus enable speed free stretch stuck = none := by
  cases hv : busSettings bus enable speed free stretch stuck with
  | none => rfl
  | some v =>
    exfalso
    unfold busSettings at hv
    split at hv
    · rename_i b on sp hb he hs
      have hb := (busOf?_eq_some_iff bus b).mp hb
      have hbl := b.isLt
      have he' : enable.toNat < 2 := by
        obtain ⟨hl, -⟩ := (switchOf?_eq_some_iff enable on).mp he
        exact hl
      have hs' : speed.toNat < 3 := by
        rw [(speedOf?_eq_some_iff speed sp).mp hs]
        cases sp <;> decide
      split at hv
      · omega
      · cases hv
    all_goals cases hv

theorem rest_setBus (s : State) (b : BusId) (x : Bus) (e : Engine) :
    (s.setBus b x).rest b e = s.setBus b (atRest x e x.monitor) := by
  rw [State.rest, State.bus_setBus_same, State.setBus_setBus]
  rfl

theorem enterIdle_setBus (s : State) (b : BusId) (x : Bus) :
    (s.setBus b x).enterIdle b = (s.setBus b (atRest x (.idle none) x.monitor)).select b := by
  rw [State.enterIdle, rest_setBus]

theorem Bus.busy_eq_true {x : Bus} (ho : x.engine ≠ .off) (h : x.engine ≠ .idle none ∨ x.queue ≠ []) :
    x.busy = true := by
  unfold Bus.busy
  split
  · exact absurd ‹_› ho
  · rename_i he
    simpa using h.resolve_left (not_not.mpr he)
  all_goals rfl

theorem Bus.busy_eq_false {x : Bus} (h : x.engine = .off ∨ (x.engine = .idle none ∧ x.queue = [])) : x.busy = false := by
  unfold Bus.busy
  rcases h with h | ⟨h, hq⟩
  · rw [h]
  · rw [h, hq]
    rfl

section Configure
variable {s : State} {v : BusSettings}

/-- The bus with the settings taken, before its engine goes by the enable field. -/
def Bus.configured (x : Bus) (v : BusSettings) : Bus :=
  { x with speed := v.speed, stretchLimit := v.stretchLimit, monitor := x.monitor.configure v.freeTime v.stuckLimit }

theorem configureBus_free (h : (s.bus v.bus).busy = false) :
    configureBus v s =
      (if v.enable then
        match (s.bus v.bus).engine, ((s.bus v.bus).configured v).monitor.line with
        | .off, .held => (s.setBus v.bus ((s.bus v.bus).configured v)).rest v.bus (.occupied none)
        | _, _ => (s.setBus v.bus ((s.bus v.bus).configured v)).enterIdle v.bus
      else (s.setBus v.bus ((s.bus v.bus).configured v)).rest v.bus .off, Answer.ok []) := by
  have hb : ¬ (s.bus v.bus).busy = true := by simp [h]
  exact if_neg hb

theorem configureBus_busy (h : (s.bus v.bus).busy = true) : configureBus v s = (s, Answer.refuse .busy) := if_pos h

theorem configureBus_disables (h : (s.bus v.bus).busy = false) (he : v.enable = false) :
    configureBus v s = (s.setBus v.bus (atRest ((s.bus v.bus).configured v) .off ((s.bus v.bus).configured v).monitor),
      Answer.ok []) := by
  rw [configureBus_free h, he, ← rest_setBus]
  rfl

theorem configureBus_held (ho : (s.bus v.bus).engine = .off) (he : v.enable = true)
    (hh : ((s.bus v.bus).configured v).monitor.line = .held) :
    configureBus v s = (s.setBus v.bus
      (atRest ((s.bus v.bus).configured v) (.occupied none) ((s.bus v.bus).configured v).monitor), Answer.ok []) := by
  rw [configureBus_free (Bus.busy_eq_false (.inl ho)), he, ho, hh, ← rest_setBus]
  rfl

theorem configureBus_idles (h : (s.bus v.bus).busy = false) (he : v.enable = true)
    (hf : (s.bus v.bus).engine = .idle none ∨ ((s.bus v.bus).configured v).monitor.line = .free) :
    configureBus v s = ((s.setBus v.bus
      (atRest ((s.bus v.bus).configured v) (.idle none) ((s.bus v.bus).configured v).monitor)).select v.bus,
      Answer.ok []) := by
  rw [configureBus_free h, he, ← enterIdle_setBus]
  rcases hf with hf | hf
  · rw [hf]
    rfl
  · rw [hf]
    cases (s.bus v.bus).engine <;> rfl

end Configure

/-- Settles O32: the settings of fields in range, and the engine by the enable field and its line. -/
theorem busConfigSetsAndEnables : Obligations.BusConfigSetsAndEnables := by
  intro s tag bus enable speed free stretch stuck body hs
  refine ⟨fun hbad => ?_, fun b sp hb he hsp hf hr hr' hk => ?_⟩
  · refine replies_refuse (owner := answerBusConfig body) rfl hs (by simp [body]) ?_
    rw [answerBusConfig, busSettings_none hbad]
  · intro x m m' y
    obtain ⟨on, hon⟩ : ∃ on, switchOf? enable = some on := ⟨_, (switchOf?_eq_some_iff enable _).mpr ⟨he, rfl⟩⟩
    have hv := busSettings_some hb hon ((speedOf?_eq_some_iff speed sp).mpr hsp) hf hr hr' hk
    have howner (u : State) : answerBusConfig body u =
        configureBus ⟨b, on, sp, 10 * free.toNat, stretch.toNat, stuck.toNat⟩ u := by
      rw [answerBusConfig, hv]
    refine ⟨fun ho hq => ?_, fun hfree => ⟨fun hoff => ?_, fun hon' => ⟨fun ho hh => ?_, fun hi => ?_⟩⟩⟩
    · exact replies_refuse (owner := answerBusConfig body) rfl hs (by simp [body])
        ((howner s.taking).trans (configureBus_busy (Bus.busy_eq_true ho hq)))
    · obtain rfl : on = false := by simpa [hoff, switchOf?, eq_comm] using hon
      exact replies_of_owner (owner := answerBusConfig body) rfl hs (by simp [body])
        ((howner s.taking).trans (configureBus_disables (Bus.busy_eq_false hfree) rfl)) (.inl rfl)
    · obtain rfl : on = true := by simpa [hon', switchOf?, eq_comm] using hon
      exact replies_of_owner (owner := answerBusConfig body) rfl hs (by simp [body])
        ((howner s.taking).trans (configureBus_held ho rfl hh)) (.inl rfl)
    · obtain rfl : on = true := by simpa [hon', switchOf?, eq_comm] using hon
      exact replies_of_owner (owner := answerBusConfig body) rfl hs (by simp [body])
        ((howner s.taking).trans (configureBus_idles (Bus.busy_eq_false hfree) rfl hi)) (.inl rfl)

/-! ### BUS_STATUS and BUS_RESET -/

theorem busStatusFields_eq (x : Bus) :
    busStatusFields x =
      [(match x.engine with
         | .off => 0x00#8
         | .idle _ => 0x01#8
         | .occupied _ => 0x02#8
         | .driving _ _ => 0x03#8
         | .answering _ => 0x04#8
         | .clearing _ _ _ => 0x05#8
         | .faulted => 0x06#8),
       (match x.engine with
         | .driving .start _ => 0x01#8
         | .driving .address _ => 0x02#8
         | .driving .send _ => 0x03#8
         | .driving (.receive _) _ => 0x04#8
         | .driving .restart _ => 0x05#8
         | .driving (.stop _) _ => 0x06#8
         | .answering r => if r.kind = .write then 0x07#8 else 0x08#8
         | _ => 0x00#8),
       byteOf x.urgent.length, byteOf x.routine.length]
       ++ bytes16 x.okCompletions ++ bytes16 x.arbitrationLosses ++ bytes16 x.stalls ++ bytes16 x.clearings
       ++ bytes16 x.faults ++ [byteOf x.pendingCleared, byteOf x.pendingFaulted, byteOf x.pendingRecovered] := by
  unfold busStatusFields
  cases x.engine with
  | driving p w => cases p <;> rfl
  | answering r => cases hk : r.kind <;> simp [Engine.value, Engine.phaseField, hk]
  | _ => rfl

/-- What an engine holds, for BUS_RESET: a record, a probe whose acknowledge bit is not taken, or neither (Table 3-4). -/
theorem abandon_record {s : State} {b : BusId} {e : Engine} {t : Txn} (h : e.record? = some t) :
    s.abandon b e = s.conclude t .abandoned := by
  unfold Engine.record? at h
  split at h
  · rw [Option.some.inj h]; rfl
  · rw [Option.some.inj h]; rfl
  · rw [Option.some.inj h]; rfl
  all_goals cases h

theorem abandon_probe {s : State} {b : BusId} {e : Engine} {h : Handle} (ha : e.awaitsProbe h = true) :
    s.abandon b e = s.giveUpProbe b h := by
  unfold Engine.awaitsProbe at ha
  split at ha
  · rw [← eq_of_beq ha]; rfl
  · cases ha
  · rename_i p k hp
    rw [← eq_of_beq ha]
    cases p with
    | stop r => exact absurd rfl (hp r)
    | _ => rfl
  all_goals cases ha

theorem abandon_nothing {s : State} {b : BusId} {e : Engine} (hr : e.record? = none)
    (ha : ∀ h, e.awaitsProbe h = false) : s.abandon b e = s := by
  unfold State.abandon
  split
  · cases hr
  · rename_i h
    simp [Engine.awaitsProbe] at ha
  · cases hr
  · rfl
  · rename_i p h hp
    cases p with
    | stop r => exact absurd rfl (hp r)
    | _ => simp [Engine.awaitsProbe] at ha
  · cases hr
  all_goals rfl

theorem enterClearing_eq (s : State) (b : BusId) (kept : Option Txn) :
    s.enterClearing b kept = s.setBus b (clearingBegun (s.bus b) kept) := rfl

theorem resetBus_eq (s : State) (b : BusId) :
    s.resetBus b = (s.setBus b { clearingBegun (s.bus b) none with urgentRun := 0 }).abandon b (s.bus b).engine := by
  unfold State.resetBus
  dsimp only
  rw [enterClearing_eq, State.bus_setBus_same, State.setBus_setBus]

/-- Settles O33: BUS_STATUS tells the bus as it stands, BUS_RESET ends what the engine holds. -/
theorem busStatusAndBusReset : Obligations.BusStatusAndBusReset := by
  refine ⟨fun s tag n hs => ⟨fun hn => ?_, fun b hn => ?_⟩, fun s tag n hs => ⟨fun hn => ?_, fun b hn =>
    ⟨fun ho => ?_, fun ho => ?_⟩⟩⟩
  · refine replies_refuse (owner := answerBusStatus [n]) rfl hs (by simp) ?_
    rw [answerBusStatus, busOf?_eq_none hn]
  · intro x
    refine replies_of_owner (owner := answerBusStatus [n]) rfl hs (by simp) ?_ (.inl rfl)
    rw [answerBusStatus, (busOf?_eq_some_iff n b).mpr hn]
    dsimp only
    rw [busStatusFields_eq]
    rfl
  · refine replies_refuse (owner := answerBusReset [n]) rfl hs (by simp) ?_
    rw [answerBusReset, busOf?_eq_none hn]
  · refine replies_refuse (owner := answerBusReset [n]) rfl hs (by simp) ?_
    rw [answerBusReset, (busOf?_eq_some_iff n b).mpr hn]
    exact if_pos ho
  · intro v
    have howner : answerBusReset [n] s.taking = (v.abandon b (s.bus b).engine, Answer.ok []) := by
      rw [answerBusReset, (busOf?_eq_some_iff n b).mpr hn]
      refine (if_neg ho).trans ?_
      rw [resetBus_eq]
      rfl
    refine ⟨fun t ht => ?_, fun h ha => ?_, fun hr ha => ?_⟩
    · exact replies_of_owner (owner := answerBusReset [n]) rfl hs (by simp)
        (howner.trans (congrArg (·, Answer.ok []) (abandon_record ht))) (.inl rfl)
    · exact replies_of_owner (owner := answerBusReset [n]) rfl hs (by simp)
        (howner.trans (congrArg (·, Answer.ok []) (abandon_probe ha))) (.inl rfl)
    · exact replies_of_owner (owner := answerBusReset [n]) rfl hs (by simp)
        (howner.trans (congrArg (·, Answer.ok []) (abandon_nothing hr ha))) (.inl rfl)

end Sys2Proof.Machine
end

section
/-! SUPPORT. TARGET_REMOVE, TARGET_RELEASE, TARGET_CHANGES, POLL_READ, POLL_OFF and INBOUND_READ. -/

namespace Sys2Proof.Machine

/-! ### What references an entry -/

theorem inFlight_pos_iff (s : State) (h : Handle) : 0 < s.inFlight h ↔ ∃ t ∈ s.records, t.handle = h := by
  simp [State.inFlight, List.countP_pos_iff]

theorem pollRefs_pos_iff (s : State) (h : Handle) : 0 < s.pollRefs h ↔ ∃ i p, s.poll i = some p ∧ p.handle = h := by
  unfold State.pollRefs allPolls
  rw [List.countP_pos_iff]
  simp only [List.mem_finRange, true_and]
  refine exists_congr fun i => ?_
  cases s.poll i <;> simp

theorem releaseHandle_unused {s : State} {h : Handle} (he : s.entry h = none) : s.releaseHandle h = s := by
  rw [State.releaseHandle, he]

theorem releaseHandle_quarantined {s : State} {h : Handle} {e : Entry} (he : s.entry h = some e)
    (hq : e.state = .quarantined) : s.releaseHandle h = s.release h e := by
  rw [State.releaseHandle, he]
  exact if_pos hq

theorem releaseHandle_other {s : State} {h : Handle} {e : Entry} (he : s.entry h = some e) (hq : e.state ≠ .quarantined) :
    s.releaseHandle h = s := by
  rw [State.releaseHandle, he]
  exact if_neg hq

/-- TARGET_RELEASE leads to the release, and answers the entry's state after it. -/
theorem answerTargetRelease_handle {n : Byte} {h : Handle} (hn : n.toNat = h.val) {s u : State}
    (hu : s.releaseHandle h = u) :
    answerTargetRelease [n] s = (u, Answer.ok [entryStateField ((u.entry h).map Entry.state)]) := by
  rw [answerTargetRelease, (handleOf?_eq_some_iff n h).mpr hn]
  dsimp only
  rw [hu]

theorem answerTargetRemove_handle {n : Byte} {h : Handle} (hn : n.toNat = h.val) (s : State) :
    answerTargetRemove [n] s =
      if s.entry h = none then (s, Answer.refuse .unknownHandle)
      else if 0 < s.inFlight h ∨ 0 < s.pollRefs h then (s, Answer.refuse .inUse)
      else (s.setEntry h none, Answer.ok []) := by
  rw [answerTargetRemove, (handleOf?_eq_some_iff n h).mpr hn]

/-- Settles O35: the checks of TARGET_REMOVE in order, and TARGET_RELEASE by the entry's state. -/
theorem targetsAreRemovedAndReleased : Obligations.TargetsAreRemovedAndReleased := by
  intro s tag n
  refine ⟨fun hs => ⟨fun hn => ?_, fun h hn => ⟨fun he => ?_, fun he => ⟨fun hused => ?_, fun ht hp => ?_⟩⟩⟩,
    fun hs => ⟨fun hn => ?_, fun h hn => ⟨fun he => ?_, fun e he => ?_⟩⟩⟩
  · refine replies_refuse (owner := answerTargetRemove [n]) rfl hs (by simp) ?_
    rw [answerTargetRemove, handleOf?_eq_none hn]
  · exact replies_refuse (owner := answerTargetRemove [n]) rfl hs (by simp)
      ((answerTargetRemove_handle hn s.taking).trans (if_pos he))
  · refine replies_refuse (owner := answerTargetRemove [n]) rfl hs (by simp)
      ((answerTargetRemove_handle hn s.taking).trans ((if_neg he).trans (if_pos ?_)))
    exact hused.imp (inFlight_pos_iff s h).mpr (pollRefs_pos_iff s h).mpr
  · refine replies_of_owner (owner := answerTargetRemove [n]) rfl hs (by simp)
      ((answerTargetRemove_handle hn s.taking).trans ((if_neg he).trans (if_neg ?_))) (.inl rfl)
    rintro (hf | hf)
    · obtain ⟨t, hmem, hh⟩ := (inFlight_pos_iff s h).mp hf
      exact ht t hmem hh
    · obtain ⟨i, p, hmem, hh⟩ := (pollRefs_pos_iff s h).mp hf
      exact hp i p hmem hh
  · refine replies_refuse (owner := answerTargetRelease [n]) rfl hs (by simp) ?_
    rw [answerTargetRelease, handleOf?_eq_none hn]
  · refine replies_of_owner (owner := answerTargetRelease [n]) rfl hs (by simp)
      ((answerTargetRelease_handle hn (releaseHandle_unused (s := s.taking) he)).trans ?_) (.inl rfl)
    rw [show s.taking.entry h = none from he]
    rfl
  · have hsame (hq : e.state ≠ .quarantined) :
        answerTargetRelease [n] s.taking = (s.taking, Answer.ok [entryStateField (some e.state)]) := by
      rw [answerTargetRelease_handle hn (releaseHandle_other (s := s.taking) he hq),
        show s.taking.entry h = some e from he]
      rfl
    refine ⟨fun hq => ?_, fun hq => ?_, fun hq => ?_, fun hq => ?_⟩
    · refine replies_of_owner (owner := answerTargetRelease [n]) rfl hs (by simp)
        ((answerTargetRelease_handle hn (releaseHandle_quarantined (s := s.taking) he hq)).trans ?_) (.inl rfl)
      rw [entry_release, if_pos rfl]
      rfl
    all_goals
      exact replies_of_owner (owner := answerTargetRelease [n]) rfl hs (by simp)
        ((hsame (by simp [hq])).trans (by rw [hq]; rfl)) (.inl rfl)

/-! ### The change sets -/

theorem take_of_split {α : Type} {taken left l : List α} {n : Nat} (hl : taken ++ left = l) (hlen : taken.length ≤ n)
    (hend : taken.length = n ∨ left = []) : l.take n = taken := by
  subst hl
  rcases hend with rfl | rfl
  · simp
  · simp [List.take_of_length_le hlen]

theorem dropTargetChanges_frame (s : State) (hs : List Handle) :
    s.dropTargetChanges hs = { s with directory := (s.dropTargetChanges hs).directory } := by
  unfold State.dropTargetChanges
  induction hs generalizing s with
  | nil => rfl
  | cons h hs ih =>
    rw [List.foldl_cons, ih]
    rfl

theorem dropPollChanges_frame (s : State) (is : List PollIndex) :
    s.dropPollChanges is = { s with polls := (s.dropPollChanges is).polls } := by
  unfold State.dropPollChanges
  induction is generalizing s with
  | nil => rfl
  | cons i is ih =>
    rw [List.foldl_cons, ih]
    rfl

theorem entry_dropTargetChanges (s : State) (hs : List Handle) (h : Handle) :
    (s.dropTargetChanges hs).entry h =
      if h ∈ hs then (s.entry h).map fun e => { e with changed := false } else s.entry h := by
  unfold State.dropTargetChanges
  induction hs generalizing s with
  | nil => simp
  | cons k hs ih =>
    rw [List.foldl_cons, ih, State.entry_setEntry]
    by_cases hk : k = h
    · subst hk
      simp [Option.map_map, Function.comp_def]
    · simp [hk, Ne.symm hk]

theorem poll_dropPollChanges (s : State) (is : List PollIndex) (i : PollIndex) :
    (s.dropPollChanges is).poll i =
      if i ∈ is then (s.poll i).map fun p => { p with changed := false } else s.poll i := by
  unfold State.dropPollChanges
  induction is generalizing s with
  | nil => simp
  | cons k is ih =>
    rw [List.foldl_cons, ih, State.poll_setPoll]
    by_cases hk : k = i
    · subst hk
      simp [Option.map_map, Function.comp_def]
    · simp [hk, Ne.symm hk]

/-- Settles O36: the members are the filtered tables, and each taken loses its mark alone. -/
theorem changeSetsAreReadInOrder : Obligations.ChangeSetsAreReadInOrder := by
  intro s tag max
  refine ⟨fun hs => ⟨fun hm => ?_, fun taken left h1 h2 hall hlen hend => ?_⟩,
    fun hs => ⟨fun hm => ?_, fun taken left h1 h2 hall hlen hend => ?_⟩⟩
  · exact replies_refuse (owner := answerTargetChanges [max]) rfl hs (by simp) (if_neg (by omega))
  · have hset : changedTargets s.taking = taken ++ left := (changedTargets_eq s.taking).trans hall.symm
    refine ⟨s.taking.dropTargetChanges taken, dropTargetChanges_frame s.taking taken,
      entry_dropTargetChanges s.taking taken, ?_⟩
    refine replies_of_owner (owner := answerTargetChanges [max]) rfl hs (by simp) ((if_pos ⟨h1, h2⟩).trans ?_) (.inl rfl)
    rw [take_of_split hset.symm hlen hend, hset, List.length_append, Nat.add_sub_cancel_left]
    rfl
  · exact replies_refuse (owner := answerPollRead [max]) rfl hs (by simp) (if_neg (by omega))
  · have hset : changedPolls s.taking = taken ++ left := (changedPolls_eq s.taking).trans hall.symm
    refine ⟨s.taking.dropPollChanges taken, dropPollChanges_frame s.taking taken, poll_dropPollChanges s.taking taken, ?_⟩
    refine replies_of_owner (owner := answerPollRead [max]) rfl hs (by simp) ((if_pos ⟨h1, h2⟩).trans ?_) (.inl rfl)
    rw [take_of_split hset.symm hlen hend, hset, List.length_append, Nat.add_sub_cancel_left]
    refine congrArg (fun l => (_, Answer.ok (_ ++ l))) (congrArg (taken.flatMap ·) (funext fun i => ?_))
    show pollReport s i = _
    unfold pollReport
    cases s.poll i with
    | none => rfl
    | some p => cases p.state <;> cases p.lastOutcome <;> rfl

/-! ### POLL_OFF -/

theorem Txn.ofPoll_iff (t : Txn) (i : PollIndex) : t.ofPoll i = true ↔ t.origin = .poll i false := by
  unfold Txn.ofPoll
  cases t.origin with
  | host k => simp
  | poll j o => cases o <;> simp

theorem Txn.orphan_of_poll {t : Txn} {i : PollIndex} {o : Bool} (h : t.origin = .poll i o) :
    t.orphan = { t with origin := .poll i true } := by
  rw [Txn.orphan, h]

/-- Changing the record an engine holds by what leaves it changes nothing. -/
theorem Engine.mapRecord_eq_self {f : Txn → Txn} {e : Engine} (h : ∀ t, e.record? = some t → f t = t) :
    e.mapRecord f = e := by
  unfold Engine.mapRecord
  split
  · rw [h _ rfl]
  · rw [h _ rfl]
  · rw [h _ rfl]
  all_goals rfl

theorem Engine.record?_mapRecord (f : Txn → Txn) (e : Engine) : (e.mapRecord f).record? = e.record?.map f := by
  unfold Engine.mapRecord
  split <;> rfl

theorem bus_pollOff {s : State} {i : PollIndex} (hon : s.poll i ≠ none) (b : BusId) :
    (s.pollOff i).bus b = (s.bus b).releasePoll i := by
  rw [State.pollOff, if_pos (Option.isSome_iff_ne_none.mpr hon)]
  exact mapTable_getElem (Bus.releasePoll i) s.buses b.val b.isLt

theorem poll_pollOff {s : State} {i : PollIndex} (hon : s.poll i ≠ none) (j : PollIndex) :
    (s.pollOff i).poll j = if j = i then none else s.poll j := by
  rw [State.pollOff, if_pos (Option.isSome_iff_ne_none.mpr hon)]
  show (s.setPoll i none).poll j = _
  rw [State.poll_setPoll]
  simp only [eq_comm (a := i)]

theorem pollOff_frame (s : State) (i : PollIndex) :
    s.pollOff i = { s with polls := (s.pollOff i).polls, buses := (s.pollOff i).buses } := by
  unfold State.pollOff
  split <;> rfl

theorem pollOff_off {s : State} {i : PollIndex} (hoff : s.poll i = none) : s.pollOff i = s := by
  rw [State.pollOff, hoff]
  rfl

theorem releasePoll_frame (x : Bus) (i : PollIndex) :
    x.releasePoll i = { keeping x (fun t => decide (t.origin ≠ .poll i false)) with
      engine := (x.releasePoll i).engine } := by
  have hdrop : (x.dropQueued fun t => t.ofPoll i) = keeping x fun t => decide (t.origin ≠ .poll i false) :=
    keeping_congr fun t => by
      show (!t.ofPoll i) = _
      rw [decide_not, ← Bool.decide_coe (t.ofPoll i), decide_eq_decide.mpr (t.ofPoll_iff i)]
  rw [← hdrop]
  rfl

/-- The record an engine holds, orphaned when it is the poll's. -/
theorem releasePoll_engine (x : Bus) (i : PollIndex) :
    (x.releasePoll i).engine = x.engine.mapRecord fun t => if t.ofPoll i then t.orphan else t := rfl

theorem release_orphans {t : Txn} {i : PollIndex} (ht : t.origin = .poll i false) :
    (if t.ofPoll i then t.orphan else t) = { t with origin := .poll i true } := by
  rw [if_pos ((t.ofPoll_iff i).mpr ht), Txn.orphan_of_poll ht]

/-- Settles O38: each bus lets go of the poll's record, in its queue or as an orphan. -/
theorem pollOffReleasesTheRecord : Obligations.PollOffReleasesTheRecord := by
  intro s tag n hs
  refine ⟨fun hn => ?_, fun i hn => ?_⟩
  · refine replies_refuse (owner := answerPollOff [n]) rfl hs (by simp) ?_
    rw [answerPollOff, pollOf?, dif_neg (by omega)]
  · have howner : answerPollOff [n] s.taking = (s.taking.pollOff i, Answer.ok []) := by
      rw [answerPollOff, (pollOf?_eq_some_iff n i).mpr hn]
    refine ⟨fun hoff => ?_, fun hon => ?_⟩
    · exact replies_of_owner (owner := answerPollOff [n]) rfl hs (by simp)
        (howner.trans (congrArg (·, Answer.ok []) (pollOff_off hoff))) (.inl rfl)
    · have hbus (b : BusId) : (s.taking.pollOff i).bus b = (s.bus b).releasePoll i :=
        bus_pollOff (s := s.taking) hon b
      refine ⟨s.taking.pollOff i, replies_of_owner (owner := answerPollOff [n]) rfl hs (by simp) howner (.inl rfl), ?_,
        poll_pollOff (s := s.taking) hon, fun b => ?_, fun b => ⟨fun hother => ?_, fun t ht =>
          ⟨fun he => ?_, fun p he => ?_, fun k g he => ?_⟩⟩⟩
      · exact pollOff_frame s.taking i
      · rw [hbus]
        exact releasePoll_frame (s.bus b) i
      · rw [hbus, releasePoll_engine]
        exact Engine.mapRecord_eq_self fun t ht => if_neg fun h => hother t ht ((t.ofPoll_iff i).mp h)
      all_goals
        rw [hbus, releasePoll_engine, he, Engine.mapRecord, release_orphans ht]

/-! ### INBOUND_READ -/

theorem inboundAttributes_eq (r : Inbound) :
    inboundAttributes r = byteOf (bit (decide (r.kind = .read)) + 2 * bit r.broadcast + 4 * bit r.truncated) := by
  simp only [inboundAttributes, bit, decide_eq_true_eq, mul_ite, mul_one, mul_zero]

/-- Settles O40: the run taken is the longest that fits; a repeated frame is re-sent by the tag check. -/
theorem inboundReadTakesFromTheHead : Obligations.InboundReadTakesFromTheHead := by
  intro s tag max
  refine ⟨fun hs => ⟨fun hm => ?_, fun taken stay h1 h8 hq hlen hsum hend => ?_⟩, fun f hl hi ho ht hc => ?_⟩
  · exact replies_refuse (owner := answerInboundRead [max]) rfl hs (by simp) (if_neg (by omega))
  · have hsplit : takeFitting inboundSize max.toNat Config.recordBytes s.taking.inbound = (taken, stay) := by
      show takeFitting inboundSize max.toNat Config.recordBytes s.inbound = _
      rw [hq]
      exact takeFitting_of_split hlen hsum hend
    refine replies_of_owner (owner := answerInboundRead [max]) rfl hs (by simp) ((if_pos ⟨h1, h8⟩).trans ?_) (.inl rfl)
    rw [hsplit]
    refine congrArg (fun l => (_, Answer.ok (_ ++ l))) (congrArg (taken.flatMap ·) (funext fun r => ?_))
    rw [inboundBytes, inboundAttributes_eq]
    cases r.endedBy <;> rfl
  · obtain ⟨-, -, -, hcached⟩ := arrivedRequestIsHandled (.inboundRead tag [max])
      { kind := 0x52#8, tag := tag, body := [max] } s rfl rfl (by simp) hl (by simp [hi])
    exact ((hcached ht (by simp [hi]) _ hc).1 rfl).1 (by simpa [hi] using ho)

end Sys2Proof.Machine
end

section
/-! SUPPORT. The timers of records, probes and polls. -/

namespace Sys2Proof.Machine

/-! ### Searches -/

theorem find?_append_cons {α : Type} {p : α → Bool} {before after : List α} {x : α} (hb : ∀ u ∈ before, p u = false)
    (hx : p x = true) : (before ++ x :: after).find? p = some x := by
  rw [List.find?_eq_some_iff_append]
  exact ⟨hx, before, after, rfl, fun u hu => by simp [hb u hu]⟩

/-- The search of a table answers at the lowest index that has something. -/
theorem findSome?_finRange {α : Type} {n : Nat} {f : Fin n → Option α} {b : Fin n} {x : α} (hb : f b = some x)
    (hlow : ∀ a, a < b → f a = none) : (List.finRange n).findSome? f = some x := by
  obtain ⟨l₁, l₂, hl⟩ := List.append_of_mem (List.mem_finRange b)
  have hpair : (List.finRange n).Pairwise (· < ·) := List.pairwise_lt_finRange n
  rw [hl, List.pairwise_append] at hpair
  rw [List.findSome?_eq_some_iff]
  exact ⟨l₁, b, l₂, hl, hb, fun a ha => hlow a (hpair.2.2 a ha b List.mem_cons_self)⟩

/-! ### Deadlines and retry gaps -/

section Records
variable {s : State} {k : Nat} {b : BusId} {t : Txn}

theorem expireTicket_queued_none (hf : s.findTicket k = .queued b t) (hd : t.deadline = none) : s.expireTicket k = s := by
  rw [State.expireTicket, hf]
  dsimp only
  rw [hd]

theorem expireTicket_queued (hf : s.findTicket k = .queued b t) {d : Nat} (hd : t.deadline = some d) :
    s.expireTicket k =
      ((s.passTo d).setBus b (keeping ((s.passTo d).bus b) fun u => decide (u.ticket? ≠ some k))).conclude
        t.discarded .expired := by
  have ht : t.hasTicket k = true := by simpa using List.find?_some (findTicket_queued hf)
  rw [State.expireTicket, hf]
  dsimp only
  rw [hd]
  dsimp only
  rw [dropTicket_eq, decideAside_ticket ht]

theorem expireTicket_active_none (hf : s.findTicket k = .active b) (ht : (s.bus b).engine.record? = some t)
    (hd : t.deadline = none) : s.expireTicket k = s := by
  rw [State.expireTicket, hf]
  dsimp only
  rw [ht, Option.bind_some, hd]

theorem expireTicket_active (hf : s.findTicket k = .active b) (ht : (s.bus b).engine.record? = some t) {d : Nat}
    (hd : t.deadline = some d) : s.expireTicket k = s.passTo d := by
  rw [State.expireTicket, hf]
  dsimp only
  rw [ht, Option.bind_some, hd]

theorem expireTicket_other (hf : s.findTicket k = .decided ∨ s.findTicket k = .stored ∨ s.findTicket k = .nowhere) :
    s.expireTicket k = s := by
  rcases hf with hf | hf | hf
  all_goals rw [State.expireTicket, hf]

/-- The queued record of a name, with its bus: the first in bus and queue order. -/
def State.queuedNamed (s : State) (n : RecordName) : Option (BusId × Txn) :=
  allBuses.findSome? fun b => ((s.bus b).queue.find? fun t => t.named n).map fun t => (b, t)

theorem queuedNamed_none {n : RecordName} (h : ∀ b, ∀ t ∈ (s.bus b).queue, t.named n = false) :
    s.queuedNamed n = none := by
  simpa [State.queuedNamed, List.findSome?_eq_none_iff, allBuses] using h

theorem queuedNamed_some {n : RecordName} {before after : List Txn} (hq : (s.bus b).queue = before ++ t :: after)
    (ht : t.named n = true) (hb : ∀ u ∈ before, u.named n = false)
    (hlow : ∀ a, a < b → ∀ u ∈ (s.bus a).queue, u.named n = false) : s.queuedNamed n = some (b, t) := by
  refine findSome?_finRange (b := b) ?_ fun a ha => ?_
  · rw [hq, find?_append_cons hb ht]
    rfl
  · have hnone : (s.bus a).queue.find? (fun t => t.named n) = none := by simpa using hlow a ha
    rw [hnone]
    rfl

theorem endGap_none {n : RecordName} (hq : s.queuedNamed n = none) : s.endGap n = s := by
  unfold State.endGap
  rw [show (allBuses.findSome? _) = none from hq]

theorem endGap_queued {n : RecordName} (hq : s.queuedNamed n = some (b, t)) (hd : t.notBefore = none) :
    s.endGap n = s := by
  unfold State.endGap
  rw [show (allBuses.findSome? _) = some (b, t) from hq]
  dsimp only
  rw [hd]

theorem endGap_waiting {n : RecordName} (hq : s.queuedNamed n = some (b, t)) {due : Nat} (hd : t.notBefore = some due) :
    s.endGap n = ((s.passTo due).setBus b (((s.passTo due).bus b).mapQueued (fun t => t.named n) fun t =>
      { t with notBefore := none })).select b := by
  unfold State.endGap
  rw [show (allBuses.findSome? _) = some (b, t) from hq]
  dsimp only
  rw [hd]

end Records

/-- Settles O41: by the place the search finds the record in, and by the timer it has. -/
theorem recordTimersRunOut : Obligations.RecordTimersRunOut := by
  intro s hl
  refine ⟨fun k _ _ => ⟨fun b t hf => ⟨fun hd => ?_, fun d hd => ?_⟩, fun b t hf ht => ⟨fun hd => ?_, fun d hd => ?_⟩,
    fun hf => ?_⟩, fun n => ⟨fun hn => ?_, fun b before t after hq ht hbefore hlow => ⟨fun hd => ?_, fun due hd => ?_⟩⟩⟩
  · exact leads_of_act (f := fun u => u.expireTicket k) rfl hl (expireTicket_queued_none hf hd)
  · exact leads_of_act (f := fun u => u.expireTicket k) rfl hl (expireTicket_queued hf hd)
  · exact leads_of_act (f := fun u => u.expireTicket k) rfl hl (expireTicket_active_none hf ht hd)
  · exact leads_of_act (f := fun u => u.expireTicket k) rfl hl (expireTicket_active hf ht hd)
  · exact leads_of_act (f := fun u => u.expireTicket k) rfl hl (expireTicket_other hf)
  · exact leads_of_act (f := fun u => u.endGap n) rfl hl (endGap_none (queuedNamed_none hn))
  · exact leads_of_act (f := fun u => u.endGap n) rfl hl (endGap_queued (queuedNamed_some hq ht hbefore hlow) hd)
  · exact leads_of_act (f := fun u => u.endGap n) rfl hl (endGap_waiting (queuedNamed_some hq ht hbefore hlow) hd)

/-! ### Probe timers and periods -/

section Timers
variable {s : State} {h : Handle} {i : PollIndex}

theorem probeTimerOut_timing {e : Entry} {r : Nat} (he : s.entry h = some e) (hp : e.probe = .timing r) :
    s.probeTimerOut h = ((s.pass (r * 1000)).setEntry h (some { e with probe := .due })).select e.bus := by
  rw [State.probeTimerOut, he]
  dsimp only
  rw [hp]

theorem probeTimerOut_other (hn : ∀ e r, s.entry h = some e → e.probe ≠ .timing r) : s.probeTimerOut h = s := by
  unfold State.probeTimerOut
  split
  · rfl
  · rename_i e he
    split
    · rename_i r hp
      exact absurd hp (hn e r he)
    all_goals rfl

theorem periodOut_other (hn : ∀ p r, s.poll i = some p → p.state ≠ .active r) : s.periodOut i = s := by
  unfold State.periodOut
  split
  · rfl
  · rename_i p hp
    split
    · rfl
    · rename_i r hr
      exact absurd hr (hn p r hp)

theorem pollReserved_iff (s : State) (i : PollIndex) :
    s.pollReserved i = true ↔ ∀ t ∈ s.records, t.origin ≠ .poll i false := by
  simp only [State.pollReserved, List.all_eq_true, Bool.not_eq_true', ← Bool.not_eq_true, Txn.ofPoll_iff]

theorem Engine.takesInstances_iff (e : Engine) :
    e.takesInstances = true ↔ e.value = 0x01#8 ∨ e.value = 0x02#8 ∨ e.value = 0x03#8 ∨ e.value = 0x04#8 := by
  cases e <;> simp [Engine.takesInstances, Engine.value]

theorem value_halfOver (x : Bus) (byte : Work → Byte) : (x.halfOver byte).engine.value = x.engine.value := by
  rw [halfOver_eq]
  split
  · rename_i w he
    rw [he]
    rfl
  · rename_i kept n he
    rw [he]
    rfl
  all_goals rfl

/-- Time changes no engine's state, a start hold's phase and a clearing's stage apart. -/
theorem value_pass (s : State) (us : Nat) (b : BusId) : ((s.pass us).bus b).engine.value = (s.bus b).engine.value := by
  rw [bus_pass]
  unfold Bus.pass
  dsimp only
  split
  · dsimp only
    split
    · rfl
    · exact value_halfOver _ _
  · dsimp only
    split
    · rfl
    · exact value_halfOver _ _
  all_goals rfl

theorem records_bus_pass (s : State) (us : Nat) (b : BusId) : ((s.pass us).bus b).records = (s.bus b).records := by
  rw [bus_pass, Bus.pass_records]

/-- The poll as its next period starts (R115). -/
def Poll.restarted (p : Poll) : Poll := { p with state := .active p.period }

/-- The poll with the expiry counted late (R116). -/
def Poll.late (p : Poll) : Poll := { p.restarted with lateCount := rise 255 p.lateCount }

/-- The conditions of R116: the poll's record is RESERVED, the engine takes instances, the queue has room. -/
def State.queuesInstance (s : State) (i : PollIndex) (b : BusId) : Bool :=
  s.pollReserved i && (s.bus b).engine.takesInstances && 0 < (s.bus b).room

theorem queuesInstance_iff (s : State) (i : PollIndex) (b : BusId) :
    s.queuesInstance i b = true ↔
      (∀ t ∈ s.records, t.origin ≠ .poll i false) ∧
      ((s.bus b).engine.value = 0x01#8 ∨ (s.bus b).engine.value = 0x02#8 ∨ (s.bus b).engine.value = 0x03#8 ∨
        (s.bus b).engine.value = 0x04#8) ∧ (s.bus b).records.length < 16 := by
  have hroom : 0 < (s.bus b).room ↔ (s.bus b).records.length < 16 := by
    rw [Nat.pos_iff_ne_zero, Ne, Bus.room_eq_zero_iff, Nat.not_le]
  rw [State.queuesInstance, Bool.and_eq_true, Bool.and_eq_true, pollReserved_iff, Engine.takesInstances_iff,
    decide_eq_true_iff, hroom, and_assoc]

theorem queuesInstance_pass (s : State) (us : Nat) (i : PollIndex) (b : BusId) :
    (s.pass us).queuesInstance i b = s.queuesInstance i b := by
  rw [Bool.eq_iff_iff, queuesInstance_iff, queuesInstance_iff, records_pass, value_pass, records_bus_pass]

variable {p : Poll} {r : Nat} {e : Entry}

theorem instanceRecord_pass (ms : Nat) : instanceRecord i p.restarted (e.pass ms) = instanceRecord i p e := by
  unfold instanceRecord Entry.pass
  cases e.probe <;> rfl

theorem bus_entryPass (e : Entry) (ms : Nat) : (e.pass ms).bus = e.bus := by
  unfold Entry.pass
  cases e.probe <;> rfl

/-- The period of an ACTIVE poll runs out, its target in use: its record is queued, or the expiry is late. -/
theorem periodOut_active (hp : s.poll i = some p) (hr : p.state = .active r) (he : s.entry p.handle = some e) :
    s.periodOut i =
      if s.queuesInstance i e.bus then
        (((s.pass (r * 1000)).setPoll i (some p.restarted)).setBus e.bus
          (((s.pass (r * 1000)).bus e.bus).joinTail (instanceRecord i p e))).select e.bus
      else (s.pass (r * 1000)).setPoll i (some p.late) := by
  have he' : (s.pass (r * 1000)).entry p.handle = some (e.pass (s.msIn (r * 1000))) := by rw [entry_pass, he]; rfl
  rw [State.periodOut, hp]
  dsimp only
  rw [hr]
  dsimp only
  rw [he']
  dsimp only
  rw [bus_entryPass, ← queuesInstance_pass s (r * 1000)]
  exact ite_congr rfl (fun _ =>
    congrArg (fun rec => (((s.pass (r * 1000)).setPoll i (some p.restarted)).setBus e.bus
      (((s.pass (r * 1000)).bus e.bus).joinTail rec)).select e.bus)
      (instanceRecord_pass (i := i) (p := p) (e := e) (s.msIn (r * 1000)))) fun _ => rfl

end Timers

theorem instanceSegments_eq (p : Poll) :
    instanceSegments p = (if p.writeBytes = [] then [] else [.write p.writeBytes]) ++ [.read p.readLength] := by
  unfold instanceSegments
  cases p.writeBytes <;> rfl

/-- Settles O42: a running timer's expiry, and a timer that does not run. -/
theorem probeAndPollTimersRunOut : Obligations.ProbeAndPollTimersRunOut := by
  intro s hl
  refine ⟨fun h => ⟨fun e r he hp => ?_, fun hn => ?_⟩, fun i => ⟨fun hn => ?_, fun p r e hp hr he => ?_⟩⟩
  · exact leads_of_act (f := fun u => u.probeTimerOut h) rfl hl (probeTimerOut_timing he hp)
  · exact leads_of_act (f := fun u => u.probeTimerOut h) rfl hl (probeTimerOut_other hn)
  · exact leads_of_act (f := fun u => u.periodOut i) rfl hl (periodOut_other hn)
  · intro v queues started
    have hq := queuesInstance_iff s i e.bus
    refine ⟨fun hyes => ?_, fun hno => ?_⟩
    · refine leads_of_act (f := fun u => u.periodOut i) rfl hl ((periodOut_active hp hr he).trans ?_)
      rw [if_pos (hq.mpr hyes), Bus.joinTail_eq, instanceRecord, instanceSegments_eq]
      rfl
    · refine leads_of_act (f := fun u => u.periodOut i) rfl hl ((periodOut_active hp hr he).trans ?_)
      rw [if_neg fun h => hno (hq.mp h)]
      rfl

end Sys2Proof.Machine
end

section
/-! SUPPORT. A transfer in its place: starts, address bytes, the bytes of a segment, and the stop. -/

namespace Sys2Proof.Machine

/-! ### Drives -/

theorem drive_setBus {s : State} {b : BusId} {y : Bus} (hy : y.ownAddress = (s.bus b).ownAddress) (p : DrivePhase)
    (w : Work) : (s.setBus b y).drive b p w = s.setBus b (driveOn y p w (s.byteSent b p w)) := by
  rw [drive_driveOn, State.bus_setBus_same, State.setBus_setBus, byteSent_setBus s b y p w hy]

theorem phaseOfSegment_cancelled {t : Txn} (h : t.cancelPending = true) :
    phaseOfSegment t = .stop (.decision .cancelled) := if_pos h

theorem phaseOfSegment_segment {t : Txn} (h : t.cancelPending = false) :
    phaseOfSegment t = match t.segments[t.progress.segmentInHand]? with
      | some (.write _) => .send
      | some (.read _) => .receive none
      | none => .stop (.decision .ok) := by
  have hn : ¬ t.cancelPending = true := by simp [h]
  exact if_neg hn

theorem phaseOfSegment_ne_address (t : Txn) : phaseOfSegment t ≠ .address := by
  unfold phaseOfSegment
  split
  · simp
  · split <;> simp

/-- After a segment the engine sends no byte: the next phase is RESTART or STOP. -/
theorem byteSent_afterSegment (s : State) (b : BusId) (t : Txn) (w : Work) :
    s.byteSent b (phaseAfterSegment t) w = none := by
  unfold phaseAfterSegment
  split_ifs <;> rfl

/-! ### Starts -/

section Starts
variable {s : State} {b : BusId} {w : Work}

/-- The bus as its engine makes the start of this work: the line HELD, the start counted (R13, R44). -/
def Bus.started (x : Bus) (w : Work) : Bus :=
  { x with monitor := lineStarted x.monitor, urgentRun := urgentRunAfter x.urgentRun w }

theorem makeStart_of_work (he : (s.bus b).engine = .idle (some w)) :
    s.makeStart b = match (s.bus b).monitor.line with
      | .free => (s.setBus b ((s.bus b).started w)).drive b .start w
      | .held => (s.rest b (.occupied (some []))).giveUpWork b w := by
  unfold State.makeStart
  dsimp only
  split
  · rename_i v hv
    obtain rfl : v = w := by simpa [he] using hv.symm
    rfl
  all_goals (rename_i hv; rw [he] at hv; cases hv)

theorem makeStart_free (he : (s.bus b).engine = .idle (some w)) (hl : (s.bus b).monitor.line = .free) :
    s.makeStart b = s.setBus b (driveOn ((s.bus b).started w) .start w none) := by
  rw [makeStart_of_work he, hl]
  exact drive_setBus (y := (s.bus b).started w) rfl .start w

theorem makeStart_held (he : (s.bus b).engine = .idle (some w)) (hl : (s.bus b).monitor.line = .held) :
    s.makeStart b = (s.setBus b (atRest (s.bus b) (.occupied (some [])) (s.bus b).monitor)).unmade b w := by
  rw [makeStart_of_work he, hl]
  cases w <;> rfl

/-- The record as it goes on to its next segment (R50). -/
def Txn.nextSegment (t : Txn) : Txn :=
  { t with progress := { t.progress with segmentInHand := t.progress.segmentInHand + 1, byteInHand := 0 } }

theorem makeRepeatedStart_restart {t : Txn} (he : (s.bus b).engine = .driving .restart (.record t)) :
    s.makeRepeatedStart b = s.setBus b (driveOn { s.bus b with monitor := lineStarted (s.bus b).monitor } .address
      (.record t.nextSegment) (some (s.addressSent (s.bus b) (.record t.nextSegment)))) := by
  rw [State.makeRepeatedStart, (Engine.drivingRecord?_eq_some_iff _ _ _).mpr he]
  exact drive_setBus (y := { s.bus b with monitor := lineStarted (s.bus b).monitor }) rfl .address (.record t.nextSegment)

end Starts

/-- Settles O46: the start of an engine with work by its line, and the repeated start. -/
theorem startsAreMade : Obligations.StartsAreMade := by
  intro s b hl x
  refine ⟨fun w he hf => ⟨urgentRunAfter x.urgentRun w, ?_, fun t ht => ⟨fun hc => ?_, fun hc => ?_⟩, fun h hh => ?_⟩,
    fun w he hh => ?_, fun t he => ?_⟩
  · exact leads_of_act (f := fun u => u.makeStart b) rfl hl (makeStart_free he hf)
  · rw [ht, urgentRunAfter, hc]
    rfl
  · rw [ht, urgentRunAfter, hc]
  · rw [hh, urgentRunAfter]
  · exact leads_of_act (f := fun u => u.makeStart b) rfl hl (makeStart_held he hh)
  · exact ⟨s.addressSent x (.record t.nextSegment), addresses_sent s b _,
      leads_of_act (f := fun u => u.makeRepeatedStart b) rfl hl (makeRepeatedStart_restart he)⟩

/-! ### Address bytes -/

section Addresses
variable {s : State} {b : BusId} {p : DrivePhase} {t : Txn}

theorem addressAnswered_first (he : (s.bus b).engine = .driving p (.record t)) (hp : p = .start ∨ p = .address)
    (hf : t.progress.segmentInHand = 0) (ack : AckBit) :
    s.addressAnswered b ack = match ack with
      | .acknowledged => (s.addressAcknowledged t.countAttempt.handle).drive b (phaseOfSegment t.countAttempt)
          (.record t.countAttempt)
      | .refused => (s.addressRefused t.countAttempt.handle).drive b (.stop .addressRefused) (.record t.countAttempt) := by
  rw [State.addressAnswered, (Engine.drivingRecord?_eq_some_iff _ _ _).mpr he]
  dsimp only
  exact (if_pos ((DrivePhase.addressing_iff p).mpr hp)).trans ((if_pos hf).trans (by cases ack <;> rfl))

theorem addressAnswered_later (he : (s.bus b).engine = .driving p (.record t)) (hp : p = .start ∨ p = .address)
    (hf : ¬ t.progress.segmentInHand = 0) (ack : AckBit) :
    s.addressAnswered b ack = match ack with
      | .acknowledged => s.drive b (phaseOfSegment t) (.record t)
      | .refused => s.drive b (.stop (.decision .dataRefused)) (.record t) := by
  rw [State.addressAnswered, (Engine.drivingRecord?_eq_some_iff _ _ _).mpr he]
  dsimp only
  exact (if_pos ((DrivePhase.addressing_iff p).mpr hp)).trans ((if_neg hf).trans (by cases ack <;> rfl))

theorem probeAnswered_in {h : Handle} (he : (s.bus b).engine = .driving p (.probe h)) (hp : p = .start ∨ p = .address)
    (ack : AckBit) : s.probeAnswered b ack = (s.probeResult b h ack).drive b (.stop .probeDone) (.probe h) := by
  rw [State.probeAnswered, he]
  exact if_pos ((DrivePhase.addressing_iff p).mpr hp)

theorem countAttempt_of_host (h : t.isHost = true) : t.countAttempt = { t with attemptsUsed := t.attemptsUsed + 1 } :=
  if_pos h

theorem countAttempt_of_poll (h : t.isHost = false) : t.countAttempt = t := by
  have hn : ¬ t.isHost = true := by simp [h]
  exact if_neg hn

/-- Counting an attempt leaves all of a record but the count. -/
theorem countAttempt_frame (t : Txn) : ∃ n, t.countAttempt = { t with attemptsUsed := n } := by
  cases h : t.isHost with
  | true => exact ⟨_, countAttempt_of_host h⟩
  | false => exact ⟨_, countAttempt_of_poll h⟩

/-- A count of attempts leaves the phase and the byte that follow the address byte. -/
theorem phaseOfSegment_countAttempt (t : Txn) : phaseOfSegment t.countAttempt = phaseOfSegment t := by
  obtain ⟨n, h⟩ := countAttempt_frame t
  rw [h]
  rfl

theorem writeByte?_countAttempt (t : Txn) : (Work.record t.countAttempt).writeByte? = (Work.record t).writeByte? := by
  obtain ⟨n, h⟩ := countAttempt_frame t
  rw [h]
  rfl

theorem handle_countAttempt (t : Txn) : t.countAttempt.handle = t.handle := by
  obtain ⟨n, h⟩ := countAttempt_frame t
  rw [h]

/-- The byte sent in the phase after the address byte: the write byte in hand in SEND. -/
def Txn.byteNext (t : Txn) : Option Byte :=
  match phaseOfSegment t with
  | .send => (Work.record t).writeByte?
  | _ => none

theorem byteSent_phaseOfSegment (s : State) (b : BusId) (t : Txn) :
    s.byteSent b (phaseOfSegment t) (.record t) = t.byteNext := by
  unfold Txn.byteNext State.byteSent
  have hn := phaseOfSegment_ne_address t
  cases h : phaseOfSegment t with
  | address => exact absurd h hn
  | _ => rfl

theorem byteNext_countAttempt (t : Txn) : t.countAttempt.byteNext = t.byteNext := by
  rw [Txn.byteNext, Txn.byteNext, phaseOfSegment_countAttempt, writeByte?_countAttempt]

end Addresses

/-- Settles O47: the first address byte and a later one, acknowledged or refused, and a probe's. -/
theorem addressBytesAreAnswered : Obligations.AddressBytesAreAnswered := by
  refine ⟨fun s b p t hl he hp => ?_, fun s b p h ack hl he hp => ?_⟩
  · intro first
    refine ⟨if first then t.countAttempt else t, fun hf hh => ?_, fun hn => ?_,
      ⟨phaseOfSegment t, t.byteNext, fun hc => ?_, fun hc => ⟨fun bytes hs => ?_, fun n hs => ?_⟩,
        fun hf => ?_, fun hf => ?_⟩, fun hf => ?_, fun hf => ?_⟩
    · rw [if_pos hf, countAttempt_of_host hh]
    · rcases hn with hn | hn
      · exact if_neg hn
      · rw [countAttempt_of_poll hn, ite_self]
    · have hq := phaseOfSegment_cancelled hc
      exact ⟨hq, by rw [Txn.byteNext, hq]⟩
    · have hq : phaseOfSegment t = .send := by rw [phaseOfSegment_segment hc, hs]
      refine ⟨hq, ?_⟩
      rw [Txn.byteNext, hq]
      simp only [Work.writeByte?, hs]
    · have hq : phaseOfSegment t = .receive none := by rw [phaseOfSegment_segment hc, hs]
      exact ⟨hq, by rw [Txn.byteNext, hq]⟩
    · refine leads_of_act (f := fun u => u.addressAnswered b .acknowledged) rfl hl
        ((addressAnswered_first he hp hf _).trans ?_)
      dsimp only
      rw [drive_driveOn, byteSent_phaseOfSegment, byteNext_countAttempt, phaseOfSegment_countAttempt,
        handle_countAttempt, if_pos hf]
    · refine leads_of_act (f := fun u => u.addressAnswered b .acknowledged) rfl hl
        ((addressAnswered_later he hp hf _).trans ?_)
      dsimp only
      rw [drive_driveOn, byteSent_phaseOfSegment, if_neg hf]
    · refine leads_of_act (f := fun u => u.addressAnswered b .refused) rfl hl
        ((addressAnswered_first he hp hf _).trans ?_)
      dsimp only
      rw [drive_driveOn, handle_countAttempt, if_pos hf]
      rfl
    · refine leads_of_act (f := fun u => u.addressAnswered b .refused) rfl hl
        ((addressAnswered_later he hp hf _).trans ?_)
      dsimp only
      rw [drive_driveOn, if_neg hf]
      rfl
  · refine leads_of_act (f := fun u => u.probeAnswered b ack) rfl hl ((probeAnswered_in he hp ack).trans ?_)
    rw [drive_driveOn]
    rfl

/-! ### The bytes of a segment -/

section Bytes
variable {s : State} {b : BusId} {t : Txn}

theorem writeAnswered_in {bytes : List Byte} (he : (s.bus b).engine = .driving .send (.record t))
    (hs : t.segments[t.progress.segmentInHand]? = some (.write bytes)) (ack : AckBit) :
    s.writeAnswered b ack = s.setBus b (driveOn (s.bus b) (afterWriteByte t bytes.length ack).2
      (.record (afterWriteByte t bytes.length ack).1)
      (s.byteSent b (afterWriteByte t bytes.length ack).2 (.record (afterWriteByte t bytes.length ack).1))) := by
  rw [← drive_driveOn, State.writeAnswered, (Engine.drivingRecord?_eq_some_iff _ _ _).mpr he]
  dsimp only
  rw [if_pos rfl, hs]

theorem readTaken_complete {n : Nat} (he : (s.bus b).engine = .driving (.receive none) (.record t))
    (hs : t.segments[t.progress.segmentInHand]? = some (.read n)) (value : Byte) :
    s.readTaken b (.complete value) = s.setBus b (driveOn (s.bus b)
      (.receive (some ((t.gather value).bitGiven n))) (.record (t.gather value)) none) := by
  rw [State.readTaken, (Engine.drivingRecord?_eq_some_iff _ _ _).mpr he]
  dsimp only
  rw [hs]
  dsimp only
  rw [drive_driveOn]
  rfl

theorem readTaken_answered {n : Nat} {ack : AckBit}
    (he : (s.bus b).engine = .driving (.receive (some ack)) (.record t))
    (hs : t.segments[t.progress.segmentInHand]? = some (.read n)) :
    s.readTaken b .answered = s.setBus b (driveOn (s.bus b) (afterReadByte t n ack).2
      (.record (afterReadByte t n ack).1)
      (s.byteSent b (afterReadByte t n ack).2 (.record (afterReadByte t n ack).1))) := by
  rw [← drive_driveOn, State.readTaken, (Engine.drivingRecord?_eq_some_iff _ _ _).mpr he]
  dsimp only
  rw [hs]

/-- The record with a byte of its segment done, and with its segment completed. -/
def Txn.withByte (t : Txn) : Txn := { t with progress := t.progress.byteDone }

def Txn.withSegment (t : Txn) : Txn := { t with progress := t.progress.segmentDone }

theorem afterWriteByte_more {length : Nat} (h : t.progress.byteInHand + 1 < length) :
    afterWriteByte t length .acknowledged =
      (t.withByte, if t.cancelPending then .stop (.decision .cancelled) else .send) := if_pos h

theorem afterWriteByte_last {length : Nat} (h : ¬ t.progress.byteInHand + 1 < length) :
    afterWriteByte t length .acknowledged = (t.withByte.withSegment, phaseAfterSegment t.withByte.withSegment) := if_neg h

theorem afterReadByte_more {length : Nat} (h : t.progress.byteInHand < length) :
    afterReadByte t length .refused = (t, .stop (.decision .cancelled)) := if_pos h

theorem afterReadByte_last {length : Nat} (h : ¬ t.progress.byteInHand < length) :
    afterReadByte t length .refused = (t.withSegment, phaseAfterSegment t.withSegment) := if_neg h

theorem phaseAfterSegment_cancelled (h : t.cancelPending = true) :
    phaseAfterSegment t = .stop (.decision .cancelled) := if_pos h

theorem phaseAfterSegment_restart (h : t.cancelPending = false) (hm : t.progress.segmentInHand + 1 < t.segments.length) :
    phaseAfterSegment t = .restart := by
  rw [phaseAfterSegment, h, if_neg Bool.false_ne_true, if_pos hm]

theorem phaseAfterSegment_stop (h : t.cancelPending = false) (hm : t.segments.length ≤ t.progress.segmentInHand + 1) :
    phaseAfterSegment t = .stop (.decision .ok) := by
  rw [phaseAfterSegment, h, if_neg Bool.false_ne_true, if_neg (Nat.not_lt.mpr hm)]

theorem bitGiven_refused {n : Nat} {value : Byte} (h : n ≤ t.progress.byteInHand + 1 ∨ t.cancelPending = true) :
    (t.gather value).bitGiven n = .refused := by
  refine if_pos ?_
  rw [Txn.refusesByte, Bool.or_eq_true, decide_eq_true_eq]
  exact h

theorem bitGiven_acknowledged {n : Nat} {value : Byte}
    (h : ¬ (n ≤ t.progress.byteInHand + 1 ∨ t.cancelPending = true)) :
    (t.gather value).bitGiven n = .acknowledged := by
  refine if_neg ?_
  rw [Txn.refusesByte, Bool.or_eq_true, decide_eq_true_eq]
  exact h

end Bytes

/-- Settles O48: each byte's acknowledge bit, by the place of the byte in its segment. -/
theorem bytesMoveOnTheTransfer : Obligations.BytesMoveOnTheTransfer := by
  intro s b t hl x one ends
  have hends (u : Txn) (hc : u.cancelPending = t.cancelPending) (hs : u.segments = t.segments)
      (hp : u.progress.segmentInHand = t.progress.segmentInHand) : ends (phaseAfterSegment u) :=
    ⟨fun h => phaseAfterSegment_cancelled (hc.trans h), fun h =>
      ⟨fun hm => phaseAfterSegment_restart (hc.trans h) (by rw [hs, hp]; exact hm),
       fun hm => phaseAfterSegment_stop (hc.trans h) (by rw [hs, hp]; exact hm)⟩⟩
  refine ⟨fun bytes he hs => ⟨?_, fun next hn => ?_, fun hn => ⟨phaseAfterSegment t.withByte.withSegment, ?_, ?_⟩⟩,
    fun n hs => ⟨fun value he => ?_, fun he => ?_, fun he => ⟨fun hm => ?_, fun hm =>
      ⟨phaseAfterSegment t.withSegment, ?_, ?_⟩⟩⟩⟩
  · exact leads_of_act (f := fun u => u.writeAnswered b .refused) rfl hl (writeAnswered_in he hs .refused)
  · refine leads_of_act (f := fun u => u.writeAnswered b .acknowledged) rfl hl
      ((writeAnswered_in he hs .acknowledged).trans ?_)
    rw [afterWriteByte_more (List.getElem?_eq_some_iff.mp hn).1]
    by_cases hc : t.cancelPending = true
    · rw [if_pos hc, if_pos hc]
      rfl
    · rw [if_neg hc, if_neg hc]
      have hw : (Work.record t.withByte).writeByte? = some next := by
        simp only [Work.writeByte?, Txn.withByte, Progress.byteDone, hs, hn]
      exact congrArg (fun v => s.setBus b (driveOn x .send (.record t.withByte) v)) hw
  · exact hends _ rfl rfl rfl
  · refine leads_of_act (f := fun u => u.writeAnswered b .acknowledged) rfl hl
      ((writeAnswered_in he hs .acknowledged).trans ?_)
    rw [afterWriteByte_last (Nat.not_lt.mpr (List.getElem?_eq_none_iff.mp hn)), byteSent_afterSegment]
    rfl
  · intro refused t'
    refine ⟨fun hr => ?_, fun hr => ?_⟩
    · refine leads_of_act (f := fun u => u.readTaken b (.complete value)) rfl hl ((readTaken_complete he hs value).trans ?_)
      rw [bitGiven_refused hr]
      rfl
    · refine leads_of_act (f := fun u => u.readTaken b (.complete value)) rfl hl ((readTaken_complete he hs value).trans ?_)
      rw [bitGiven_acknowledged hr]
      rfl
  · exact leads_of_act (f := fun u => u.readTaken b .answered) rfl hl (readTaken_answered he hs)
  · refine leads_of_act (f := fun u => u.readTaken b .answered) rfl hl ((readTaken_answered he hs).trans ?_)
    rw [afterReadByte_more hm]
    rfl
  · exact hends _ rfl rfl rfl
  · refine leads_of_act (f := fun u => u.readTaken b .answered) rfl hl ((readTaken_answered he hs).trans ?_)
    rw [afterReadByte_last (Nat.not_lt.mpr hm), byteSent_afterSegment]
    rfl

/-! ### The stop -/

theorem mapMonitor_rest (s : State) (b : BusId) (f : Monitor → Monitor) (e : Engine) :
    (s.mapMonitor b f).rest b e = s.setBus b (atRest (s.bus b) e (f (s.bus b).monitor)) :=
  rest_setBus s b { s.bus b with monitor := f (s.bus b).monitor } e

theorem releaseStop_rose {s : State} {b : BusId} {r : StopResult} {w : Work}
    (he : (s.bus b).engine = .driving (.stop r) w) :
    s.releaseStop b true = ((s.setBus b (atRest (s.bus b) (.idle none) (lineStopped (s.bus b).monitor))).reportStop b r
      w).select b := by
  rw [State.releaseStop, he]
  dsimp only
  rw [if_pos rfl, mapMonitor_rest]
  rfl

theorem releaseStop_held {s : State} {b : BusId} {r : StopResult} {w : Work}
    (he : (s.bus b).engine = .driving (.stop r) w) :
    s.releaseStop b false = (s.setBus b (atRest (s.bus b) (.occupied none) (clockFell (s.bus b).monitor))).reportStop b
      r w := by
  rw [State.releaseStop, he]
  dsimp only
  rw [if_neg Bool.false_ne_true, mapMonitor_rest]
  rfl

/-- Settles O49: STOP_RELEASED by the level of data, and the report by its result. -/
theorem stopReportsItsResult : Obligations.StopReportsItsResult := by
  intro s b r w hl he x idle occupied
  refine ⟨?_, ?_, fun v => ⟨fun h => rfl, fun t hr => ?_, fun t hr => ?_, fun t o hr ho => ?_⟩⟩
  · exact leads_of_act (f := fun u => u.releaseStop b true) rfl hl (releaseStop_rose he)
  · exact leads_of_act (f := fun u => u.releaseStop b false) rfl hl (releaseStop_held he)
  · rw [hr]; rfl
  · rw [hr]; rfl
  · rw [hr]
    cases o with
    | ok => exact absurd rfl ho
    | _ => rfl

end Sys2Proof.Machine
end

section
/-! SUPPORT. Lost arbitration, and answering as a target. -/

namespace Sys2Proof.Machine

/-! ### The bits of a byte -/

theorem bitsOf_eq_range (v : Byte) : bitsOf v = (List.range 8).map fun i => v.getLsbD (7 - i) := rfl

/-- The bits heard of the winner's byte: those sent before the place, and the one lost (R58). -/
def winnersBits (v : Byte) (place : Fin 8) : List Bool :=
  (List.range place.val).map (fun i => v.getLsbD (7 - i)) ++ [false]

theorem take_bitsOf (v : Byte) (place : Fin 8) : (bitsOf v).take place.val ++ [false] = winnersBits v place := by
  fin_cases place <;> rfl

theorem bitsLost_one {v : Byte} {place : Fin 8} (h : v.getLsbD (7 - place.val) = true) :
    bitsLost (some v) place = some (winnersBits v place) :=
  bitsLost_some.mpr ⟨v, rfl, by rw [bitsOf_get, h], (take_bitsOf v place).symm⟩

theorem bitsLost_zero {v : Byte} {place : Fin 8} (h : v.getLsbD (7 - place.val) = false) :
    bitsLost (some v) place = none := by
  rw [bitsLost, bitsOf_get, h]
  rfl

/-! ### Lost arbitration -/

theorem mapMonitor_loseBus (s : State) (b : BusId) (f : Monitor → Monitor) (w : Work) (hearing : Option (List Bool)) :
    (s.mapMonitor b f).loseBus b w hearing =
      (s.setBus b (lossCounted (s.bus b) hearing (f (s.bus b).monitor))).lost b w := by
  unfold State.loseBus
  dsimp only
  rw [mapMonitor_rest, State.bus_setBus_same, State.setBus_setBus]
  cases w <;> rfl

section Losses
variable {s : State} {b : BusId} {p : DrivePhase} {w : Work}

theorem loseToLow_eq (hearing : Option (List Bool)) :
    s.loseToLow b w hearing = (s.setBus b (lossCounted (s.bus b) hearing (clockFell (s.bus b).monitor))).lost b w :=
  mapMonitor_loseBus s b Monitor.fallen w hearing

theorem loseToStart_eq :
    s.loseToStart b w = (s.setBus b (lossCounted (s.bus b) (some []) (lineStarted (s.bus b).monitor))).lost b w :=
  mapMonitor_loseBus s b Monitor.start w (some [])

theorem loseToStop_eq :
    s.loseToStop b w =
      ((s.setBus b (lossCounted (s.bus b) none (lineStopped (s.bus b).monitor))).lost b w).idleAgain b :=
  congrArg (fun u => u.idleAgain b) (mapMonitor_loseBus s b Monitor.stop w none)

/-- The byte whose bit is lost: in START that of the address byte that then begins. -/
def State.byteAtLoss (s : State) (b : BusId) : Option Byte :=
  ((s.bus b).holdOver (s.addressSent (s.bus b))).sending

theorem byteAtLoss_start (he : (s.bus b).engine = .driving .start w) :
    s.byteAtLoss b = some (s.addressSent (s.bus b) w) := by
  rw [State.byteAtLoss, holdOver_start he]
  rfl

theorem byteAtLoss_later (he : (s.bus b).engine = .driving p w) (hp : p ≠ .start) :
    s.byteAtLoss b = (s.bus b).sending := by
  unfold State.byteAtLoss Bus.holdOver
  split
  · rename_i v hv
    rw [he] at hv
    exact absurd (Engine.driving.inj hv).1 hp
  all_goals rfl

/-- The loss by its cause: a bit of the byte sent, the level before a repeated start, the acknowledge bit of a read byte, or a
foreign condition (R33, R57, R59). -/
theorem arbitrationLoss_driving (he : (s.bus b).engine = .driving p w) :
    (∀ place, s.byteAtLoss b = none → s.arbitrationLoss b (.bitLow place) = s) ∧
    (∀ place v, s.byteAtLoss b = some v → v.getLsbD (7 - place.val) = false →
      s.arbitrationLoss b (.bitLow place) = s) ∧
    (∀ place v, s.byteAtLoss b = some v → v.getLsbD (7 - place.val) = true →
      s.arbitrationLoss b (.bitLow place) =
        if p.addressing then s.loseToLow b w (some (winnersBits v place))
        else if p = .send then s.loseToLow b w none else s) ∧
    s.arbitrationLoss b .restartLow = (if p = .restart then s.loseToLow b w none else s) ∧
    s.arbitrationLoss b .notAcknowledge = (if p = .receive (some .refused) then s.loseToLow b w none else s) ∧
    s.arbitrationLoss b .startSeen = (if p.exposed then s.loseToStart b w else s) ∧
    s.arbitrationLoss b .stopSeen = (if p.exposed then s.loseToStop b w else s) := by
  have hnot (place : Fin 8) (h : bitsLost (s.byteAtLoss b) place = none) : s.arbitrationLoss b (.bitLow place) = s := by
    rw [State.arbitrationLoss, he]
    dsimp only
    rw [show bitsLost ((s.bus b).holdOver (s.addressSent (s.bus b))).sending place = none from h]
  refine ⟨fun place hv => hnot place (by rw [hv]; rfl), fun place v hv h => hnot place (by rw [hv, bitsLost_zero h]),
    fun place v hv h => ?_, ?_, ?_, ?_, ?_⟩
  · rw [State.arbitrationLoss, he]
    dsimp only
    rw [show bitsLost ((s.bus b).holdOver (s.addressSent (s.bus b))).sending place = _ from
      (congrArg (bitsLost · place) hv).trans (bitsLost_one h)]
  all_goals rw [State.arbitrationLoss, he]

theorem DrivePhase.exposed_iff (p : DrivePhase) :
    p.exposed = true ↔ (∀ r, p ≠ .stop r) ∧ p ≠ .receive (some .acknowledged) := by
  cases p with
  | receive given => rcases given with _ | _ | _ <;> simp [DrivePhase.exposed]
  | _ => simp [DrivePhase.exposed]

theorem DrivePhase.not_exposed (h : (∃ r, p = .stop r) ∨ p = .receive (some .acknowledged)) : ¬ p.exposed = true := by
  rw [DrivePhase.exposed_iff]
  rintro ⟨hs, hr⟩
  rcases h with ⟨r, h⟩ | h
  · exact hs r h
  · exact hr h

end Losses

/-- Settles O50: each cause in its phase and out of it. -/
theorem arbitrationIsLost : Obligations.ArbitrationIsLost := by
  intro s b p w hl he x lostHere loses winners
  obtain ⟨hnone, hzero, hone, hrestart, hnack, hstart, hstop⟩ := arbitrationLoss_driving he
  have leads (cause : LossCause) {u : State} (h : s.arbitrationLoss b cause = u) : Leads (.arbitrationLost b cause) s u :=
    leads_of_act (f := fun u => u.arbitrationLoss b cause) rfl hl h
  have hloses (v : Byte) (hv : s.byteAtLoss b = some v) (hearing : Fin 8 → Option (List Bool))
      (h : ∀ place, (if p.addressing then s.loseToLow b w (some (winnersBits v place))
        else if p = .send then s.loseToLow b w none else s) = s.loseToLow b w (hearing place)) : loses v hearing :=
    fun place => ⟨fun h1 => leads _ ((hone place v hv h1).trans ((h place).trans (loseToLow_eq _))),
      fun h0 => leads _ (hzero place v hv h0)⟩
  have haddress (hp : p = .start ∨ p = .address) (v : Byte) (hv : s.byteAtLoss b = some v) : loses v (winners v) :=
    hloses v hv _ fun _ => if_pos ((DrivePhase.addressing_iff p).mpr hp)
  refine ⟨fun hp => ⟨s.addressSent x w, addresses_sent s b w, ?_⟩, fun hp v hv => ?_, fun hp v hv => ?_,
    fun place hp hn => ?_, fun hp => ?_, fun hp => ?_, fun hp => ?_, fun hp => ?_, fun hs hr => ?_, fun h => ?_⟩
  · exact haddress (.inl hp) _ (byteAtLoss_start (hp ▸ he))
  · exact haddress (.inr hp) v ((byteAtLoss_later he (by simp [hp])).trans hv)
  · refine hloses v ((byteAtLoss_later he (by simp [hp])).trans hv) _ fun _ => ?_
    rw [hp]
    rfl
  · have hb := byteAtLoss_later he hp
    rcases hn with hn | ⟨ha, hsend⟩
    · exact leads _ (hnone place (hb.trans hn))
    · cases hv : s.byteAtLoss b with
      | none => exact leads _ (hnone place hv)
      | some v =>
        cases hbit : v.getLsbD (7 - place.val) with
        | false => exact leads _ (hzero place v hv hbit)
        | true =>
          refine leads _ ((hone place v hv hbit).trans ?_)
          rw [if_neg fun h => ((DrivePhase.addressing_iff p).mp h).elim hp ha, if_neg hsend]
  · exact leads _ (hrestart.trans ((if_pos hp).trans (loseToLow_eq _)))
  · exact leads _ (hrestart.trans (if_neg hp))
  · exact leads _ (hnack.trans ((if_pos hp).trans (loseToLow_eq _)))
  · exact leads _ (hnack.trans (if_neg hp))
  · have hx := (DrivePhase.exposed_iff p).mpr ⟨hs, hr⟩
    exact ⟨leads _ (hstart.trans ((if_pos hx).trans loseToStart_eq)), leads _ (hstop.trans ((if_pos hx).trans loseToStop_eq))⟩
  · have hx := DrivePhase.not_exposed h
    exact ⟨leads _ (hstart.trans (if_neg hx)), leads _ (hstop.trans (if_neg hx))⟩

/-! ### Answering as a target -/

theorem isPrefixOf_bitsOf (known : List Bool) (value : Byte) :
    known.isPrefixOf (bitsOf value) = true ↔
      ((List.range 8).map fun i => value.getLsbD (7 - i)).take known.length = known := by
  rw [List.isPrefixOf_iff_prefix, List.prefix_iff_eq_take, bitsOf_eq_range, eq_comm]

theorem addressBits_eq {value : Byte} {a : BusAddress} {d : Nat} (hd : d < 2) (h : value.toNat = 2 * a.toNat + d) :
    addressBits value = a := by
  refine BitVec.eq_of_toNat_eq ?_
  have ha := a.isLt
  rw [addressBits, BitVec.toNat_ofNat, h]
  omega

theorem addressBits_toNat (value : Byte) : value.toNat = 2 * (addressBits value).toNat + value.toNat % 2 := by
  have hv := value.isLt
  rw [addressBits, BitVec.toNat_ofNat]
  omega

section Heard
variable {x : Bus} {value : Byte} {a : BusAddress}

theorem offered_broadcast (hv : value = 0x00#8) (h : x.broadcastAccept = true) :
    offered x value = some (openReception .write true x.page) := by
  rw [offered, if_pos hv, if_pos h]

theorem offered_own {d : Nat} (hv : value ≠ 0x00#8) (ho : x.ownAddress = some a) (hd : d < 2)
    (h : value.toNat = 2 * a.toNat + d) :
    offered x value = some (openReception (if d = 1 then .read else .write) false x.page) := by
  have hr : directionRead value = decide (d = 1) := by
    rw [directionRead, show value.toNat % 2 = d by omega]
  rw [offered, if_neg hv, if_pos (by rw [addressBits_eq hd h, ho]), hr]
  simp

theorem offered_none (h : (value = 0x00#8 ∧ x.broadcastAccept = false) ∨
    (value ≠ 0x00#8 ∧ (¬ ∃ a, x.ownAddress = some a ∧ value.toNat = 2 * a.toNat + 0) ∧
      ¬ ∃ a, x.ownAddress = some a ∧ value.toNat = 2 * a.toNat + 1)) : offered x value = none := by
  rcases h with ⟨hv, hb⟩ | ⟨hv, h0, h1⟩
  · rw [offered, if_pos hv, if_neg (by simp [hb])]
  · rw [offered, if_neg hv, if_neg]
    intro ho
    have hn := addressBits_toNat value
    rcases Nat.mod_two_eq_zero_or_one value.toNat with h | h
    · exact h0 ⟨_, ho, by omega⟩
    · exact h1 ⟨_, ho, by omega⟩

end Heard

section Receptions
variable {s : State} {b : BusId} {value : Byte}

theorem mapMonitor_answer (s : State) (b : BusId) (r : Reception) (data : Drive) :
    (s.mapMonitor b Monitor.fallen).answer b r data = s.setBus b { s.bus b with
      engine := .answering r, dataOut := data, sending := r.byteGiven, bitsPlaced := 0
      monitor := clockFell (s.bus b).monitor } := by
  rw [answer_frame, State.mapMonitor, State.bus_setBus_same, State.setBus_setBus]
  rfl

theorem addressHeard_other {known : List Bool} (he : (s.bus b).engine = .occupied (some known))
    (h : ¬ known.isPrefixOf (bitsOf value) = true) : s.addressHeard b value = s := by
  rw [State.addressHeard, he]
  exact if_neg h

theorem addressHeard_admitted {known : List Bool} (he : (s.bus b).engine = .occupied (some known))
    (h : known.isPrefixOf (bitsOf value) = true) {r : Reception} (ha : s.admitted b value = some r) :
    s.addressHeard b value = (s.mapMonitor b Monitor.fallen).answer b r .low := by
  rw [State.addressHeard, he]
  dsimp only
  rw [if_pos h, ha]

theorem addressHeard_passed {known : List Bool} (he : (s.bus b).engine = .occupied (some known))
    (h : known.isPrefixOf (bitsOf value) = true) (ha : s.admitted b value = none) :
    s.addressHeard b value = s.setBus b (atRest (s.bus b) (.occupied none) (clockFell (s.bus b).monitor)) := by
  rw [State.addressHeard, he]
  dsimp only
  rw [if_pos h, ha]
  exact mapMonitor_rest s b Monitor.fallen (.occupied none)

theorem admitted_room (h : s.inbound.length + s.reservations < 8) : s.admitted b value = offered (s.bus b) value :=
  if_pos h

theorem admitted_full (h : 8 ≤ s.inbound.length + s.reservations) : s.admitted b value = none :=
  if_neg (Nat.not_lt.mpr h)

theorem byteGiven_write {r : Reception} (h : r.kind = .write) : r.byteGiven = none := by
  rw [Reception.byteGiven, h]

theorem byteGiven_closed {r : Reception} (h : r.closed = true) : r.byteGiven = none := by
  rw [Reception.byteGiven, h]
  cases r.kind <;> rfl

theorem byteGiven_read {r : Reception} (hk : r.kind = .read) (hc : r.closed = false) :
    r.byteGiven = some (r.pageCopy.getD r.count 0xFF#8) := by
  rw [Reception.byteGiven, hk, hc]

theorem takeByte_kind (r : Reception) (value : Byte) : (r.takeByte value).kind = r.kind := by
  unfold Reception.takeByte
  split <;> rfl

theorem takeByte_stored {r : Reception} (h : r.count < 32) :
    r.takeByte value = { r with data := r.data ++ [value], count := r.count + 1 } := if_pos h

theorem takeByte_full {r : Reception} (h : 32 ≤ r.count) : r.takeByte value = { r with truncated := true } :=
  if_neg (Nat.not_lt.mpr h)

theorem writeIn_write {r : Reception} (he : (s.bus b).engine = .answering r) (hk : r.kind = .write) :
    s.writeIn b value = s.setBus b { s.bus b with
      engine := .answering (r.takeByte value), dataOut := (if r.count < 32 then .low else .released), sending := none
      bitsPlaced := 0, monitor := clockFell (s.bus b).monitor } := by
  have hg : (r.takeByte value).byteGiven = none := byteGiven_write ((takeByte_kind r value).trans hk)
  rw [← hg, ← mapMonitor_answer, State.writeIn, he]
  dsimp only
  rw [hk]
  rfl

theorem readOut_closed {r : Reception} (he : (s.bus b).engine = .answering r) (hk : r.kind = .read)
    (hc : r.closed = true) (ack : AckBit) : s.readOut b ack = s := by
  rw [State.readOut, he]
  dsimp only
  rw [hk, hc]

theorem readOut_open {r : Reception} (he : (s.bus b).engine = .answering r) (hk : r.kind = .read)
    (hc : r.closed = false) (ack : AckBit) :
    s.readOut b ack = s.setBus b (Bus.placeBit { s.bus b with
      engine := .answering (r.giveByte ack), dataOut := .released, sending := (r.giveByte ack).byteGiven, bitsPlaced := 0
      monitor := clockFell (s.bus b).monitor }) := by
  rw [State.readOut, he]
  dsimp only
  rw [hk, hc]
  dsimp only
  rw [mapMonitor_answer, State.bus_setBus_same, State.setBus_setBus]

theorem giveByte_closed (r : Reception) (ack : AckBit) (hc : r.closed = false) :
    (r.giveByte ack).closed = decide (ack = .refused) := by
  unfold Reception.giveByte
  cases ack <;> split <;> simp [hc]

theorem giveByte_kind (r : Reception) (ack : AckBit) : (r.giveByte ack).kind = r.kind := by
  unfold Reception.giveByte
  cases ack <;> split <;> rfl

theorem giveByte_counts {r : Reception} (hc : r.closed = false) (h : r.count < 32) (ack : AckBit) :
    r.giveByte ack = { r with count := r.count + 1, closed := decide (ack = .refused) } := by
  unfold Reception.giveByte
  rw [if_pos (show r.count < Config.receptionBytes from h)]
  cases ack
  · simp [hc]
  · rfl

theorem giveByte_full {r : Reception} (hc : r.closed = false) (h : 32 ≤ r.count) (ack : AckBit) :
    r.giveByte ack = { r with truncated := true, closed := decide (ack = .refused) } := by
  unfold Reception.giveByte
  rw [if_neg (show ¬ r.count < Config.receptionBytes from Nat.not_lt.mpr h)]
  cases ack
  · simp [hc]
  · rfl

theorem bitOnData_first (v : Byte) :
    (if v.getLsbD 7 = true then Drive.released else Drive.low) =
      if (some v).any (fun v => !v.getLsbD 7) then .low else .released := by
  rw [Option.any_some]
  cases v.getLsbD 7 <;> rfl

/-- The first bit of the byte given next stands on data; after a refusal none does. -/
theorem placeBit_given (x : Bus) {r : Reception} {ack : AckBit} (hk : r.kind = .read) (hc : r.closed = false) :
    Bus.placeBit { x with
        engine := .answering (r.giveByte ack), dataOut := .released, sending := (r.giveByte ack).byteGiven, bitsPlaced := 0
        monitor := clockFell x.monitor } =
      { x with
        engine := .answering (r.giveByte ack), sending := (r.giveByte ack).byteGiven
        bitsPlaced := (if ack = .refused then 0 else 1), monitor := clockFell x.monitor
        dataOut := (if (r.giveByte ack).byteGiven.any (fun v => !v.getLsbD 7) then .low else .released) } := by
  have hclosed := giveByte_closed r ack hc
  cases ack with
  | refused =>
    rw [byteGiven_closed hclosed]
    exact placeBit_none rfl
  | acknowledged =>
    have hg := byteGiven_read ((giveByte_kind r .acknowledged).trans hk) hclosed
    rw [hg, (placeBit_some rfl).1 0 rfl]
    congr 1
    exact bitOnData_first _

end Receptions

/-- Settles O51: the address byte by what it offers, the bytes of a reception by its count, and the byte given by the page. -/
theorem responderAnswersAsATarget : Obligations.ResponderAnswersAsATarget := by
  refine ⟨fun s b hl => ?_, fun r => ⟨fun h => ?_, fun hk hc => ⟨fun before v after hp hn => ?_, fun hn => ?_⟩⟩⟩
  · intro x m
    refine ⟨fun known value he => ?_, fun r value he hk => ⟨fun hn => ?_, fun hn => ?_⟩, fun r ack he hk =>
      ⟨fun hc => ?_, fun hc => ⟨r.giveByte ack, fun hn => ?_, fun hn => ?_, ?_⟩⟩⟩
    · intro bits opens named
      have leads {u : State} (h : s.addressHeard b value = u) : Leads (.addressByteHeard b value) s u :=
        leads_of_act (f := fun u => u.addressHeard b value) rfl hl h
      refine ⟨fun hn => ?_, fun hk => ⟨fun hroom => ⟨fun hv hb => ?_, fun hv hname => ?_, fun hname => ?_⟩, fun hno => ?_⟩⟩
      · exact leads (addressHeard_other he fun h => hn ((isPrefixOf_bitsOf known value).mp h))
      all_goals have hpre := (isPrefixOf_bitsOf known value).mpr hk
      · exact leads ((addressHeard_admitted he hpre ((admitted_room hroom).trans (offered_broadcast hv hb))).trans
          (mapMonitor_answer s b _ _))
      · obtain ⟨a, ho, ha⟩ := hname
        exact leads ((addressHeard_admitted he hpre ((admitted_room hroom).trans
          (offered_own hv ho (by omega) ha))).trans (mapMonitor_answer s b _ _))
      · obtain ⟨a, ho, ha⟩ := hname
        have hv : value ≠ 0x00#8 := by
          rintro rfl
          simp at ha
        refine leads ((addressHeard_admitted he hpre ((admitted_room hroom).trans
          (offered_own hv ho (by omega) ha))).trans ((mapMonitor_answer s b _ _).trans ?_))
        rw [byteGiven_read rfl rfl]
        simp only [opens, openReception, List.headD_eq_head?_getD, List.getD_eq_getElem?_getD, List.head?_eq_getElem?]
        rfl
      · refine leads (addressHeard_passed he hpre ?_)
        rcases hno with hfull | hno
        · exact admitted_full hfull
        · by_cases hroom : s.inbound.length + s.reservations < 8
          · exact (admitted_room hroom).trans (offered_none hno)
          · exact admitted_full (Nat.not_lt.mp hroom)
    · refine leads_of_act (f := fun u => u.writeIn b value) rfl hl ((writeIn_write he hk).trans ?_)
      rw [if_pos hn, takeByte_stored hn]
    · refine leads_of_act (f := fun u => u.writeIn b value) rfl hl ((writeIn_write he hk).trans ?_)
      rw [if_neg (Nat.not_lt.mpr hn), takeByte_full hn]
    · exact leads_of_act (f := fun u => u.readOut b ack) rfl hl (readOut_closed he hk hc ack)
    · exact giveByte_counts hc hn ack
    · exact giveByte_full hc hn ack
    · refine leads_of_act (f := fun u => u.readOut b ack) rfl hl ((readOut_open he hk hc ack).trans ?_)
      rw [placeBit_given _ hk hc]
  · rcases h with h | h
    · exact byteGiven_write h
    · exact byteGiven_closed h
  · rw [byteGiven_read hk hc, hp, hn]
    simp
  · rw [byteGiven_read hk hc, List.getD_eq_getElem?_getD, List.getElem?_eq_none hn]
    rfl

end Sys2Proof.Machine
end

section
/-! SUPPORT. Conditions of the line: stops, bus-free, stuck and stalls, and the clearing sequence. -/

namespace Sys2Proof.Machine

/-! ### Engines as time passes -/

theorem Engine.value_off_iff (e : Engine) : e.value = 0x00#8 ↔ e = .off := by
  cases e <;> simp [Engine.value]

theorem Engine.value_faulted_iff (e : Engine) : e.value = 0x06#8 ↔ e = .faulted := by
  cases e <;> simp [Engine.value]

theorem Engine.drives_iff (e : Engine) : e.drives = true ↔ e.value = 0x03#8 := by
  cases e <;> simp [Engine.value, Engine.drives]

/-- Time moves an engine only in DRIVING and CLEARING. -/
theorem engine_pass {s : State} {b : BusId} (h3 : (s.bus b).engine.value ≠ 0x03#8)
    (h5 : (s.bus b).engine.value ≠ 0x05#8) (us : Nat) : ((s.pass us).bus b).engine = (s.bus b).engine := by
  rw [bus_pass]
  cases he : (s.bus b).engine with
  | driving p w => exact absurd (by rw [he]; rfl) h3
  | clearing kept n stage => exact absurd (by rw [he]; rfl) h5
  | off => rw [pass_still (.inl (by rw [he]; rfl)), he]
  | idle w => rw [pass_still (.inr (.inl (by rw [he]; rfl))), he]
  | faulted => rw [pass_still (.inr (.inr (by rw [he]; rfl))), he]
  | occupied hearing => rw [pass_listening (.inl (by rw [he]; rfl)), he]
  | answering r => rw [pass_listening (.inr (by rw [he]; rfl)), he]

/-- Time keeps a bus's counters. -/
theorem counters_pass (s : State) (us : Nat) (b : BusId) :
    ((s.pass us).bus b).stalls = (s.bus b).stalls ∧ ((s.pass us).bus b).faults = (s.bus b).faults ∧
    ((s.pass us).bus b).pendingFaulted = (s.bus b).pendingFaulted := by
  rw [bus_pass]
  obtain ⟨e, c, d, v, n, m, k, h⟩ := Bus.pass_frame (s.bus b) (s.addressSent (s.bus b)) us (s.msIn us)
  rw [h]
  exact ⟨rfl, rfl, rfl⟩

/-! ### STOP_SEEN and BUS_FREE -/

section Conditions
variable {s : State} {b : BusId}

theorem seeStop_still (h : (s.bus b).engine = .off ∨ (s.bus b).engine.value = 0x01#8 ∨ (s.bus b).engine = .faulted) :
    s.seeStop b = s.mapMonitor b Monitor.stop := by
  rw [Engine.value_idle_iff] at h
  rcases h with h | ⟨w, h⟩ | h
  all_goals rw [State.seeStop, h]

theorem seeStop_clearing {kept : Option Txn} {n : Nat} {stage : ClearingStage}
    (h : (s.bus b).engine = .clearing kept n stage) :
    s.seeStop b = if stage = .starting then s else s.conditionInClearing b Monitor.stop := by
  rw [State.seeStop, h]
  cases stage <;> rfl

theorem seeStop_occupied {hearing : Option (List Bool)} (h : (s.bus b).engine = .occupied hearing) :
    s.seeStop b = (s.mapMonitor b Monitor.stop).enterIdle b := by
  rw [State.seeStop, h]

theorem seeStop_driving {p : DrivePhase} {w : Work} (h : (s.bus b).engine = .driving p w) :
    s.seeStop b = if p.exposed then s.loseToStop b w else s := by
  rw [State.seeStop, h]

theorem seeStop_answering {r : Reception} (h : (s.bus b).engine = .answering r) :
    s.seeStop b = ((s.mapMonitor b Monitor.stop).endReception b r .stop).enterIdle b := by
  rw [State.seeStop, h]

theorem stopTold_free (h : (s.bus b).monitor.line = .free) : s.stopTold b = s := by
  rw [State.stopTold, h]

theorem stopTold_held (h : (s.bus b).monitor.line = .held) : s.stopTold b = s.seeStop b := by
  rw [State.stopTold, h]

theorem raiseBusFree_still (h : (s.bus b).engine = .off ∨ (s.bus b).engine.value = 0x01#8 ∨
    (s.bus b).engine.value = 0x05#8) : s.raiseBusFree b = s.mapMonitor b Monitor.busFree := by
  rw [Engine.value_idle_iff, Engine.value_clearing_iff] at h
  rcases h with h | ⟨w, h⟩ | ⟨kept, n, stage, h⟩
  all_goals rw [State.raiseBusFree, h]

theorem raiseBusFree_occupied (h : (s.bus b).engine.value = 0x02#8) :
    s.raiseBusFree b = (s.mapMonitor b Monitor.busFree).enterIdle b := by
  obtain ⟨hearing, h⟩ := (Engine.value_occupied_iff _).mp h
  rw [State.raiseBusFree, h]

theorem raiseBusFree_answering {r : Reception} (h : (s.bus b).engine = .answering r) :
    s.raiseBusFree b = ((s.mapMonitor b Monitor.busFree).endReception b r .stop).enterIdle b := by
  rw [State.raiseBusFree, h]

theorem raiseBusFree_faulted (h : (s.bus b).engine = .faulted) :
    s.raiseBusFree b = (s.setBus b { s.bus b with
      monitor := lineFreed (s.bus b).monitor, pendingRecovered := rise 255 (s.bus b).pendingRecovered }).idleAgain b := by
  rw [State.raiseBusFree, h]
  dsimp only
  rw [State.mapMonitor, State.bus_setBus_same, State.setBus_setBus]
  rfl

theorem freeTold_kept (h : (s.bus b).monitor.freeRaised = true ∨ (s.bus b).engine.value = 0x03#8) : s.freeTold b = s := by
  refine if_pos ?_
  rw [Bool.or_eq_true, Engine.drives_iff]
  exact h

theorem freeTold_raised (hr : (s.bus b).monitor.freeRaised = false) (h : (s.bus b).engine.value ≠ 0x03#8) :
    s.freeTold b = (s.pass ((s.bus b).monitor.freeTime - (s.bus b).monitor.freeTimer)).raiseBusFree b := by
  refine if_neg ?_
  rw [Bool.or_eq_true, Engine.drives_iff]
  rintro (h' | h')
  · simp [hr] at h'
  · exact h h'

end Conditions

/-- Settles O44: a stop told and bus-free raised, each by the engine's state. -/
theorem stopSeenAndBusFreeActByTheEngine : Obligations.StopSeenAndBusFreeActByTheEngine := by
  refine ⟨fun s b hl => ?_, fun s b hl => ?_⟩
  · intro x m
    have leads {u : State} (h : s.stopTold b = u) : Leads (.stopSeen b) s u :=
      leads_of_act (f := fun u => u.stopTold b) rfl hl h
    refine ⟨fun hf => leads (stopTold_free hf), fun hh => ⟨fun he => ?_, fun kept n stage he hs => ?_, fun he => ?_,
      fun hearing he => ?_, fun p w he => ⟨fun hp => ?_, fun hs hr => ?_⟩, fun r he => ?_⟩⟩
    all_goals have hseen := stopTold_held hh
    · exact leads (hseen.trans (seeStop_still he))
    · exact leads (hseen.trans ((seeStop_clearing he).trans (if_neg hs)))
    · obtain ⟨kept, n, he⟩ := he
      exact leads (hseen.trans ((seeStop_clearing he).trans (if_pos rfl)))
    · exact leads (hseen.trans (seeStop_occupied he))
    · exact leads (hseen.trans ((seeStop_driving he).trans (if_neg (DrivePhase.not_exposed hp))))
    · exact leads (hseen.trans ((seeStop_driving he).trans
        ((if_pos ((DrivePhase.exposed_iff p).mpr ⟨hs, hr⟩)).trans loseToStop_eq)))
    · exact leads (hseen.trans (seeStop_answering he))
  · intro v e x m
    have leads {u : State} (h : s.freeTold b = u) : Leads (.busFree b) s u :=
      leads_of_act (f := fun u => u.freeTold b) rfl hl h
    have hvalue : x.engine.value = e.value := value_pass s _ b
    refine ⟨fun h => leads (freeTold_kept h), fun hr => ⟨fun he => ?_, fun he => ?_, fun he => ?_, fun r he => ?_⟩⟩
    · have h3 : e.value ≠ 0x03#8 := by
        rcases he with he | he | he
        · rw [he]; decide
        · rw [he]; decide
        · rw [he]; decide
      refine leads ((freeTold_raised hr h3).trans (raiseBusFree_still ?_))
      rcases he with he | he | he
      · exact .inl ((Engine.value_off_iff _).mp (hvalue.trans (by rw [he]; rfl)))
      · exact .inr (.inl (hvalue.trans he))
      · exact .inr (.inr (hvalue.trans he))
    · exact leads ((freeTold_raised hr (by rw [he]; decide)).trans (raiseBusFree_occupied (hvalue.trans he)))
    · have hv : e.value = 0x06#8 := by rw [he]; rfl
      exact leads ((freeTold_raised hr (by rw [hv]; decide)).trans
        (raiseBusFree_faulted ((Engine.value_faulted_iff _).mp (hvalue.trans hv))))
    · have hv : e.value = 0x04#8 := by rw [he]; rfl
      exact leads ((freeTold_raised hr (by rw [hv]; decide)).trans (raiseBusFree_answering
        ((engine_pass (by rw [hv]; decide) (by rw [hv]; decide) _).trans he)))

/-! ### Clearings -/

section Clearings
variable {s : State} {b : BusId}

theorem mapMonitor_enterClearing (s : State) (b : BusId) (f : Monitor → Monitor) (kept : Option Txn) :
    (s.mapMonitor b f).enterClearing b kept =
      s.setBus b (clearingBegun { s.bus b with monitor := f (s.bus b).monitor } kept) := by
  rw [enterClearing_eq, State.mapMonitor, State.bus_setBus_same, State.setBus_setBus]

theorem raiseStuck_occupied {hearing : Option (List Bool)} (he : (s.bus b).engine = .occupied hearing) :
    s.raiseStuck b = s.setBus b (clearingBegun { s.bus b with monitor := clockFell (s.bus b).monitor } none) := by
  rw [State.raiseStuck, he]
  exact mapMonitor_enterClearing s b Monitor.fallen none

theorem raiseStuck_answering {r : Reception} (he : (s.bus b).engine = .answering r) :
    s.raiseStuck b =
      { s.setBus b (clearingBegun { s.bus b with monitor := clockFell (s.bus b).monitor } none) with
        inbound := s.inbound ++ [inboundOf b r .abort] } := by
  rw [State.raiseStuck, he]
  exact congrArg (fun u : State => { u with inbound := s.inbound ++ [inboundOf b r .abort] })
    (mapMonitor_enterClearing s b Monitor.fallen none)

theorem stuckTold_in (h : (s.bus b).engine.value = 0x02#8 ∨ (s.bus b).engine.value = 0x04#8) :
    s.stuckTold b =
      (s.pass (((s.bus b).monitor.stuckLimit - (s.bus b).monitor.stuckTimer) * 1000)).raiseStuck b :=
  if_pos ((Engine.stuckReaches_iff _).mpr h)

/-- The state as the stall is counted and the clearing begins, with the record it keeps. -/
def State.stalling (s : State) (b : BusId) (kept : Option Txn) : State :=
  (s.stretchOut b).setBus b (clearingBegun { (s.stretchOut b).bus b with
    stalls := rise 65535 (s.bus b).stalls, monitor := clockFell ((s.stretchOut b).bus b).monitor } kept)

/-- A stall's clearing begun and its work reported or kept (R63, R64). -/
def State.stallTaken (s : State) (b : BusId) : DrivePhase → Work → State
  | .stop r, w => (s.stalling b none).reportStop b r w
  | _, .record t => s.stalling b (some t)
  | _, .probe h => (s.stalling b none).giveUpProbe b h

theorem stallBus_driving {p : DrivePhase} {w : Work} (he : (s.bus b).engine = .driving p w) :
    s.stallBus b = s.stallTaken b p w := by
  obtain ⟨hstalls, -, -⟩ := counters_pass s (((s.bus b).stretchLimit - (s.bus b).stretchTimer) * 1000) b
  have hbegun (kept : Option Txn) : ((((s.stretchOut b).mapMonitor b Monitor.fallen).setBus b
      { ((s.stretchOut b).mapMonitor b Monitor.fallen).bus b with
        stalls := satSucc 65535 (((s.stretchOut b).mapMonitor b Monitor.fallen).bus b).stalls })).enterClearing b kept =
      s.stalling b kept := by
    rw [enterClearing_eq, State.mapMonitor, State.bus_setBus_same, State.bus_setBus_same, State.setBus_setBus,
      State.setBus_setBus, State.stalling, ← hstalls]
    rfl
  rw [State.stallBus, he]
  cases w with
  | record t =>
    cases p with
    | stop r => exact congrArg (fun u => u.reportStop b r (.record t)) (hbegun none)
    | _ => exact hbegun (some t)
  | probe h =>
    cases p with
    | stop r => exact congrArg (fun u => u.reportStop b r (.probe h)) (hbegun none)
    | _ => exact congrArg (fun u => u.giveUpProbe b h) (hbegun none)

theorem stallBus_record {p : DrivePhase} {t : Txn} (he : (s.bus b).engine = .driving p (.record t))
    (hp : ∀ r, p ≠ .stop r) : s.stallBus b = s.stalling b (some t) := by
  rw [stallBus_driving he]
  cases p with
  | stop r => exact absurd rfl (hp r)
  | _ => rfl

theorem stallBus_probe {p : DrivePhase} {h : Handle} (he : (s.bus b).engine = .driving p (.probe h))
    (hp : ∀ r, p ≠ .stop r) : s.stallBus b = (s.stalling b none).giveUpProbe b h := by
  rw [stallBus_driving he]
  cases p with
  | stop r => exact absurd rfl (hp r)
  | _ => rfl

theorem sense_clockHigh_waiting {kept : Option Txn} {n : Nat} {dataHigh : Bool}
    (he : (s.bus b).engine = .clearing kept n .waiting) (hh : (s.bus b).monitor.line = .held ∨ dataHigh = true) :
    s.sense b (.clockHigh dataHigh) =
      s.setBus b ((s.bus b).clearingClockHigh kept n (dataHigh && decide ((s.bus b).dataOut = .released))) := by
  have hrise : (s.bus b).clockRise dataHigh =
      (s.bus b).clearingClockHigh kept n (dataHigh && decide ((s.bus b).dataOut = .released)) := by
    rw [Bus.clockRise, he]
    rfl
  rw [← hrise]
  cases hl : (s.bus b).monitor.line with
  | held => unfold State.sense; rw [hl]
  | free =>
    obtain rfl : dataHigh = true := hh.resolve_left (by simp [hl])
    unfold State.sense
    rw [hl]
    refine if_pos ?_
    rw [he]
    rfl

/-- The state as a clearing has ended CLEARED, its record not yet reported (R66). -/
def State.cleared (s : State) (b : BusId) : State :=
  s.setBus b { atRest (s.bus b) (.idle none) (lineStopped (s.bus b).monitor) with
    pendingCleared := rise 255 (s.bus b).pendingCleared }

theorem endClearing_clearing {kept : Option Txn} {n : Nat} {stage : ClearingStage}
    (he : (s.bus b).engine = .clearing kept n stage) :
    s.endClearing b =
      if stage.clears then ((s.cleared b).concludeStalled kept .stalled).select b else s := by
  have hended : ((s.mapMonitor b Monitor.stop).rest b (.idle none)).setBus b
      { ((s.mapMonitor b Monitor.stop).rest b (.idle none)).bus b with
        pendingCleared := satSucc 255 (((s.mapMonitor b Monitor.stop).rest b (.idle none)).bus b).pendingCleared } =
      s.cleared b := by
    rw [mapMonitor_rest, State.bus_setBus_same, State.setBus_setBus]
    rfl
  rw [← hended, State.endClearing, he]

/-- The state as a clearing has failed, its record not yet reported (R67). -/
def State.failed (s : State) (b : BusId) : State :=
  s.setBus b { atRest (s.bus b) .faulted (lineStarted (s.bus b).monitor) with
    faults := rise 65535 (s.bus b).faults, pendingFaulted := rise 255 (s.bus b).pendingFaulted }

theorem failClearing_clearing {kept : Option Txn} {n : Nat} {stage : ClearingStage}
    (he : (s.bus b).engine = .clearing kept n stage) :
    s.failClearing b =
      ((if stage = .exhausted then s else s.stretchOut b).failed b).concludeStalled kept .busFault := by
  have hended (u : State) : ((u.mapMonitor b Monitor.start).rest b .faulted).setBus b
      { ((u.mapMonitor b Monitor.start).rest b .faulted).bus b with
        faults := satSucc 65535 (((u.mapMonitor b Monitor.start).rest b .faulted).bus b).faults
        pendingFaulted := satSucc 255 (((u.mapMonitor b Monitor.start).rest b .faulted).bus b).pendingFaulted } =
      u.failed b := by
    rw [mapMonitor_rest, State.bus_setBus_same, State.setBus_setBus]
    rfl
  rw [← hended, State.failClearing, he]

end Clearings

theorem ClearingStage.clears_iff (stage : ClearingStage) : stage.clears = true ↔ stage ≠ .exhausted := by
  cases stage <;> simp [ClearingStage.clears]

/-- Settles O45: the entries to CLEARING, its pulses, and its two ends. -/
theorem clearingBeginsAndEnds : Obligations.ClearingBeginsAndEnds := by
  intro s b hl x v w stalling
  have hstalling (kept : Option Txn) : stalling kept = s.stalling b kept := rfl
  refine ⟨fun hearing he => ?_, fun r he => ?_, fun p t he => ⟨fun hp => ?_, fun r hp => ?_⟩,
    fun p h he => ⟨fun hp => ?_, fun r hp => ?_⟩, fun kept n he => ⟨fun hd => ?_, fun dataHigh hh hd =>
      ⟨fun hn => ?_, fun hn => ?_⟩⟩, fun kept n stage he => ?_⟩
  · have hv : x.engine.value = 0x02#8 := by rw [he]; rfl
    exact leads_of_act (f := fun u => u.stuckTold b) rfl hl ((stuckTold_in (.inl hv)).trans (raiseStuck_occupied
      ((engine_pass (by rw [hv]; decide) (by rw [hv]; decide) _).trans he)))
  · have hv : x.engine.value = 0x04#8 := by rw [he]; rfl
    exact leads_of_act (f := fun u => u.stuckTold b) rfl hl ((stuckTold_in (.inr hv)).trans (raiseStuck_answering
      ((engine_pass (by rw [hv]; decide) (by rw [hv]; decide) _).trans he)))
  · exact leads_of_act (f := fun u => u.stallBus b) rfl hl (stallBus_record he hp)
  · rw [hp] at he
    exact leads_of_act (f := fun u => u.stallBus b) rfl hl (stallBus_driving he)
  · exact leads_of_act (f := fun u => u.stallBus b) rfl hl (stallBus_probe he hp)
  · rw [hp] at he
    exact leads_of_act (f := fun u => u.stallBus b) rfl hl (stallBus_driving he)
  · refine leads_of_act (f := fun u => u.sense b (.clockHigh true)) rfl hl
      ((sense_clockHigh_waiting he (.inr rfl)).trans ?_)
    rw [hd]
    rfl
  · have hlow : (dataHigh && decide (x.dataOut = .released)) = false := by
      rcases hd with hd | hd
      · simp [hd]
      · simp [hd]
    refine leads_of_act (f := fun u => u.sense b (.clockHigh dataHigh)) rfl hl
      ((sense_clockHigh_waiting he (.inl hh)).trans ?_)
    rw [hlow, Bus.clearingClockHigh, if_neg Bool.false_ne_true, if_pos hn]
    rfl
  · have hlow : (dataHigh && decide (x.dataOut = .released)) = false := by
      rcases hd with hd | hd
      · simp [hd]
      · simp [hd]
    refine leads_of_act (f := fun u => u.sense b (.clockHigh dataHigh)) rfl hl
      ((sense_clockHigh_waiting he (.inl hh)).trans ?_)
    rw [hlow, Bus.clearingClockHigh, if_neg Bool.false_ne_true, if_neg (Nat.not_lt.mpr hn)]
    rfl
  · intro ended u failed
    have hended : ended = s.cleared b := rfl
    have hfailed : failed = u.failed b := by
      obtain ⟨-, hf, hp⟩ := counters_pass s ((x.stretchLimit - x.stretchTimer) * 1000) b
      have hcount : (u.bus b).faults = x.faults ∧ (u.bus b).pendingFaulted = x.pendingFaulted := by
        by_cases hs : stage = .exhausted
        · exact ⟨by simp only [u, if_pos hs]; rfl, by simp only [u, if_pos hs]; rfl⟩
        · exact ⟨by simp only [u, if_neg hs]; exact hf, by simp only [u, if_neg hs]; exact hp⟩
      simp only [failed, State.failed, hcount]
    refine ⟨fun hs => ?_, fun hs => ⟨fun hk => ?_, fun t hk => ?_⟩, fun hk => ?_, fun t hk => ?_⟩
    · refine leads_of_act (f := fun u => u.endClearing b) rfl hl ((endClearing_clearing he).trans (if_neg ?_))
      rw [ClearingStage.clears_iff]
      exact not_not.mpr hs
    · refine leads_of_act (f := fun u => u.endClearing b) rfl hl
        ((endClearing_clearing he).trans ((if_pos ((ClearingStage.clears_iff stage).mpr hs)).trans ?_))
      rw [hk]
      rfl
    · refine leads_of_act (f := fun u => u.endClearing b) rfl hl
        ((endClearing_clearing he).trans ((if_pos ((ClearingStage.clears_iff stage).mpr hs)).trans ?_))
      rw [hk]
      rfl
    · refine leads_of_act (f := fun u => u.failClearing b) rfl hl ((failClearing_clearing he).trans ?_)
      rw [hk, hfailed]
      rfl
    · refine leads_of_act (f := fun u => u.failClearing b) rfl hl ((failClearing_clearing he).trans ?_)
      rw [hk, hfailed]
      rfl

end Sys2Proof.Machine
end

section
/-! SUPPORT. START_SEEN: starts by the engine's state, and the edges of the clock. -/

namespace Sys2Proof.Machine

/-! ### Starts -/

section Starts
variable {s : State} {b : BusId}

/-- Data falling is a start, and so is clock falling on a FREE line (R28). -/
theorem sense_start {change : SensedChange}
    (h : change = .dataFell ∨ ((s.bus b).monitor.line = .free ∧ ∃ data, change = .clockFell data)) :
    s.sense b change = s.seeStart b := by
  unfold State.sense
  rcases h with rfl | ⟨hl, data, rfl⟩
  · cases (s.bus b).monitor.line <;> rfl
  · rw [hl]

theorem seeStart_still (h : (s.bus b).engine = .off ∨ (s.bus b).engine = .faulted) :
    s.seeStart b = s.mapMonitor b Monitor.start := by
  rcases h with h | h
  all_goals rw [State.seeStart, h]

theorem seeStart_clearing {kept : Option Txn} {n : Nat} {stage : ClearingStage}
    (h : (s.bus b).engine = .clearing kept n stage) :
    s.seeStart b = if stage = .starting then s else s.conditionInClearing b Monitor.start := by
  rw [State.seeStart, h]
  cases stage <;> rfl

theorem seeStart_hears (h : (s.bus b).engine = .idle none ∨ ∃ hearing, (s.bus b).engine = .occupied hearing) :
    s.seeStart b = s.setBus b (atRest (s.bus b) (.occupied (some [])) (lineStarted (s.bus b).monitor)) := by
  rcases h with h | ⟨hearing, h⟩
  all_goals
    rw [State.seeStart, h]
    exact mapMonitor_rest s b Monitor.start _

theorem seeStart_idle {w : Work} (h : (s.bus b).engine = .idle (some w)) :
    s.seeStart b =
      (s.setBus b (atRest (s.bus b) (.occupied (some [])) (lineStarted (s.bus b).monitor))).unmade b w := by
  rw [State.seeStart, h]
  dsimp only
  rw [mapMonitor_rest]
  cases w <;> rfl

theorem seeStart_driving {p : DrivePhase} {w : Work} (h : (s.bus b).engine = .driving p w) :
    s.seeStart b = if p.exposed then s.loseToStart b w else s := by
  rw [State.seeStart, h]

theorem seeStart_answering {r : Reception} (h : (s.bus b).engine = .answering r) :
    s.seeStart b =
      { s.setBus b (atRest (s.bus b) (.occupied (some [])) (lineStarted (s.bus b).monitor)) with
        inbound := s.inbound ++ [inboundOf b r .restart] } := by
  rw [State.seeStart, h]
  exact congrArg (fun u : State => { u with inbound := s.inbound ++ [inboundOf b r .restart] })
    (mapMonitor_rest s b Monitor.start _)

end Starts

/-! ### Edges of the clock -/

section Edges
variable {x : Bus} {byte : Work → Byte}

theorem clockFall_still (h3 : x.engine.value ≠ 0x03#8) (h4 : x.engine.value ≠ 0x04#8) :
    x.clockFall byte = { x with monitor := clockFell x.monitor } := by
  unfold Bus.clockFall
  cases he : x.engine with
  | driving p w => exact absurd (by rw [he]; rfl) h3
  | answering r => exact absurd (by rw [he]; rfl) h4
  | _ => rfl

theorem clockFall_hold {w : Work} (h : x.engine = .driving .start w) :
    x.clockFall byte = { inAddress x w (byte w) with stretchTimer := 0, monitor := clockFell x.monitor } := by
  have hover : Bus.holdOver { x with monitor := x.monitor.fallen } byte =
      inAddress { x with monitor := x.monitor.fallen } w (byte w) :=
    holdOver_start (x := { x with monitor := x.monitor.fallen }) h byte
  unfold Bus.clockFall
  dsimp only
  rw [hover, h]
  rfl

theorem clockFall_driving {p : DrivePhase} {w : Work} (h : x.engine = .driving p w) (hp : p ≠ .start) :
    x.clockFall byte =
      { Bus.placeBit { x with monitor := clockFell x.monitor } with clockOut := .low, stretchTimer := 0 } := by
  unfold Bus.clockFall
  dsimp only
  split
  · rename_i v hv
    rw [h] at hv
    exact absurd (Engine.driving.inj hv).1 hp
  · rfl
  all_goals (rename_i hv; rw [h] at hv; cases hv)

theorem clockFall_answering {r : Reception} (h : x.engine = .answering r) :
    x.clockFall byte = Bus.placeBit { x with monitor := clockFell x.monitor, dataOut := .released } := by
  unfold Bus.clockFall
  dsimp only
  split
  · rename_i hv
    rw [h] at hv
    cases hv
  · rename_i hv
    rw [h] at hv
    cases hv
  · rfl
  all_goals (rename_i hv; rw [h] at hv; cases hv)

/-- The bus as clock has fallen within a byte, with this level of data and count of bits placed (R32, R46, R136). -/
def Bus.fallenTo (x : Bus) (data : Drive) (placed : Nat) : Bus :=
  { x with dataOut := data, bitsPlaced := placed, monitor := clockFell x.monitor
           clockOut := if x.engine.value = 0x03#8 then .low else x.clockOut
           stretchTimer := if x.engine.value = 0x03#8 then 0 else x.stretchTimer }

theorem Engine.phaseField_driving {e : Engine} (hv : e.value = 0x03#8) (hf : e.phaseField ≠ 0x01#8) :
    ∃ p w, e = .driving p w ∧ p ≠ .start := by
  obtain ⟨p, w, rfl⟩ := (Engine.value_driving_iff e).mp hv
  exact ⟨p, w, rfl, fun hp => hf (by rw [hp]; rfl)⟩

/-- A fall of clock while a drive goes on or in ANSWERING places the next bit of the byte sent, if there is one. -/
theorem clockFall_places (h : (x.engine.value = 0x03#8 ∧ x.engine.phaseField ≠ 0x01#8) ∨ x.engine.value = 0x04#8) :
    (x.sending = none → x.clockFall byte =
      x.fallenTo (if x.engine.value = 0x03#8 then x.dataOut else .released) x.bitsPlaced) ∧
    (∀ v, x.sending = some v →
      (∀ place : Fin 8, x.bitsPlaced = place.val →
        x.clockFall byte = x.fallenTo (bitOnData (v.getLsbD (7 - place.val))) (place.val + 1)) ∧
      (8 ≤ x.bitsPlaced → x.clockFall byte = x.fallenTo .released 9)) := by
  rcases h with ⟨hv, hf⟩ | hv
  · obtain ⟨p, w, he, hp⟩ := Engine.phaseField_driving hv hf
    rw [clockFall_driving he hp]
    refine ⟨fun hs => ?_, fun v hs => ⟨fun place hn => ?_, fun hn => ?_⟩⟩
    · rw [placeBit_none (x := { x with monitor := clockFell x.monitor }) hs, Bus.fallenTo, if_pos hv, if_pos hv, if_pos hv]
    · rw [(placeBit_some (x := { x with monitor := clockFell x.monitor }) hs).1 place hn, Bus.fallenTo, if_pos hv,
        if_pos hv]
      rfl
    · rw [(placeBit_some (x := { x with monitor := clockFell x.monitor }) hs).2 hn, Bus.fallenTo, if_pos hv, if_pos hv]
  · obtain ⟨r, he⟩ := (Engine.value_answering_iff _).mp hv
    have h3 : x.engine.value ≠ 0x03#8 := by rw [hv]; decide
    rw [clockFall_answering he]
    refine ⟨fun hs => ?_, fun v hs => ⟨fun place hn => ?_, fun hn => ?_⟩⟩
    · rw [placeBit_none (x := { x with monitor := clockFell x.monitor, dataOut := .released }) hs, Bus.fallenTo,
        if_neg h3, if_neg h3, if_neg h3]
    · rw [(placeBit_some (x := { x with monitor := clockFell x.monitor, dataOut := .released }) hs).1 place hn,
        Bus.fallenTo, if_neg h3, if_neg h3]
      rfl
    · rw [(placeBit_some (x := { x with monitor := clockFell x.monitor, dataOut := .released }) hs).2 hn,
        Bus.fallenTo, if_neg h3, if_neg h3]

theorem clockRise_driving (h : x.engine.value = 0x03#8) (dataHigh : Bool) :
    x.clockRise dataHigh = { x with clockOut := .released, stretchTimer := 0
                                    monitor := x.monitor.clockRisen (dataHigh && decide (x.dataOut = .released)) } := by
  obtain ⟨p, w, he⟩ := (Engine.value_driving_iff _).mp h
  unfold Bus.clockRise
  dsimp only
  rw [he]
  rfl

theorem clockRise_still (h3 : x.engine.value ≠ 0x03#8) (hc : ∀ kept n, x.engine ≠ .clearing kept n .waiting)
    (dataHigh : Bool) :
    x.clockRise dataHigh =
      { x with monitor := x.monitor.clockRisen (dataHigh && decide (x.dataOut = .released)) } := by
  unfold Bus.clockRise
  cases he : x.engine with
  | driving p w => exact absurd (by rw [he]; rfl) h3
  | clearing kept n stage =>
    cases stage with
    | waiting => exact absurd he (hc kept n)
    | _ => rfl
  | _ => rfl

end Edges

theorem Engine.awaitsClock_iff (e : Engine) : e.awaitsClock = true ↔ ∃ kept n, e = .clearing kept n .waiting := by
  cases e with
  | clearing kept n stage => cases stage <;> simp [Engine.awaitsClock]
  | _ => simp [Engine.awaitsClock]

section Sensed
variable {s : State} {b : BusId}

theorem sense_clockFell (h : (s.bus b).monitor.line = .held) (data : Bool) :
    s.sense b (.clockFell data) = s.setBus b ((s.bus b).clockFall (s.addressSent (s.bus b))) := by
  unfold State.sense
  rw [h]

theorem sense_clockHigh (h : (s.bus b).monitor.line = .held) (data : Bool) :
    s.sense b (.clockHigh data) = s.setBus b ((s.bus b).clockRise data) := by
  unfold State.sense
  rw [h]

theorem sense_clockHigh_free (h : (s.bus b).monitor.line = .free) (data : Bool)
    (hc : data = true → ∀ kept n, (s.bus b).engine ≠ .clearing kept n .waiting) : s.sense b (.clockHigh data) = s := by
  unfold State.sense
  rw [h]
  cases data with
  | false => rfl
  | true =>
    refine if_neg fun ha => ?_
    obtain ⟨kept, n, he⟩ := (Engine.awaitsClock_iff _).mp ha
    exact hc rfl kept n he

end Sensed

/-- Settles O43: the starts by the engine's state, then the edges of the clock on a HELD line, then on a FREE one. -/
theorem startSeenActsByTheEngine : Obligations.StartSeenActsByTheEngine := by
  intro s b hl x m
  have leads (change : SensedChange) {u : State} (h : s.sense b change = u) : Leads (.startSeen b change) s u :=
    leads_of_act (f := fun u => u.sense b change) rfl hl h
  refine ⟨fun change hc => ?_, fun hh dataHigh => ⟨fun h3 h4 => ?_, fun w he => ?_, fun hv => ?_, ?_⟩, fun hf =>
    ⟨?_, fun hc => ?_⟩⟩
  · have hstart := sense_start hc
    refine ⟨fun he => ?_, fun kept n stage he hs => ?_, fun he => ?_, fun he => ?_, fun w he => ?_, fun p w he =>
      ⟨fun hp => ?_, fun hs hr => ?_⟩, fun r he => ?_⟩
    · exact leads _ (hstart.trans (seeStart_still he))
    · exact leads _ (hstart.trans ((seeStart_clearing he).trans (if_neg hs)))
    · obtain ⟨kept, n, he⟩ := he
      exact leads _ (hstart.trans ((seeStart_clearing he).trans (if_pos rfl)))
    · exact leads _ (hstart.trans (seeStart_hears he))
    · exact leads _ (hstart.trans (seeStart_idle he))
    · exact leads _ (hstart.trans ((seeStart_driving he).trans (if_neg (DrivePhase.not_exposed hp))))
    · exact leads _ (hstart.trans ((seeStart_driving he).trans
        ((if_pos ((DrivePhase.exposed_iff p).mpr ⟨hs, hr⟩)).trans loseToStart_eq)))
    · exact leads _ (hstart.trans (seeStart_answering he))
  · exact leads _ ((sense_clockFell hh dataHigh).trans (congrArg (s.setBus b) (clockFall_still h3 h4)))
  · exact ⟨s.addressSent x w, addresses_sent s b w,
      leads _ ((sense_clockFell hh dataHigh).trans (congrArg (s.setBus b) (clockFall_hold he)))⟩
  · intro places
    obtain ⟨hnone, hsome⟩ := clockFall_places (byte := s.addressSent x) hv
    have hplaces (data : Drive) (placed : Nat) (h : x.clockFall (s.addressSent x) = x.fallenTo data placed) :
        places data placed := leads _ ((sense_clockFell hh dataHigh).trans (congrArg (s.setBus b) h))
    exact ⟨fun hs => hplaces _ _ (hnone hs), fun v hs =>
      ⟨fun place hn => hplaces _ _ ((hsome v hs).1 place hn), fun hn => hplaces _ _ ((hsome v hs).2 hn)⟩⟩
  · intro risen
    exact ⟨fun h3 => leads _ ((sense_clockHigh hh dataHigh).trans (congrArg (s.setBus b) (clockRise_driving h3 dataHigh))),
      fun h3 hc => leads _ ((sense_clockHigh hh dataHigh).trans
        (congrArg (s.setBus b) (clockRise_still h3 hc dataHigh)))⟩
  · exact leads _ (sense_clockHigh_free hf false (by simp))
  · exact leads _ (sense_clockHigh_free hf true fun _ => hc)

end Sys2Proof.Machine
end

section
/-! SUPPORT. The state right after a reset: nothing queued, in use or waiting, and every bus at its values after reset, so that
the laws of the device hold. -/

namespace Sys2Proof.Machine

/-- The device side is as a reset leaves it (R26, R89, R110, R128, R143). -/
structure State.Blank (s : State) : Prop where
  bus : ∀ b, ∃ high, s.bus b = Bus.reset high
  entry : ∀ h, s.entry h = none
  poll : ∀ i, s.poll i = none
  store : s.store = []
  waitList : s.waitList = []
  inbound : s.inbound = []
  nextTicket : s.nextTicket = 1

theorem blank_fullReset (s : State) (rate : LinkRate) (sensed : Bool) : (s.fullReset rate sensed).Blank where
  bus b := ⟨_, State.bus_fullReset s rate sensed b⟩
  entry h := by simp [State.fullReset, State.resetValues, State.entry]
  poll i := by simp [State.fullReset, State.resetValues, State.poll]
  store := rfl
  waitList := rfl
  inbound := rfl
  nextTicket := rfl

theorem blank_reset : State.reset.Blank where
  bus b := ⟨true, by simp [State.reset, State.resetValues, State.bus]⟩
  entry h := by simp [State.reset, State.resetValues, State.entry]
  poll i := by simp [State.reset, State.resetValues, State.poll]
  store := rfl
  waitList := rfl
  inbound := rfl
  nextTicket := rfl

namespace State.Blank
variable {s : State} (hs : s.Blank)
include hs

theorem engine (b : BusId) : (s.bus b).engine = .off := by
  obtain ⟨high, h⟩ := hs.bus b
  rw [h]
  rfl

theorem bus_records (b : BusId) : (s.bus b).records = [] := by
  obtain ⟨high, h⟩ := hs.bus b
  rw [h]
  rfl

theorem queue (b : BusId) : (s.bus b).queue = [] := by
  obtain ⟨high, h⟩ := hs.bus b
  rw [h]
  rfl

theorem records : s.records = [] := by
  rw [List.eq_nil_iff_forall_not_mem]
  intro t ht
  obtain ⟨b, ht⟩ := mem_records.mp ht
  rw [hs.bus_records b] at ht
  cases ht

theorem pollsOn : s.pollsOn = 0 := by
  simp [State.pollsOn, hs.poll]

theorem reservations : s.reservations = 0 := by
  simp [State.reservations, hs.engine]

/-! ### Chapter 1 -/

theorem recordsAtHome : s.RecordsAtHome := by
  simp [State.RecordsAtHome, hs.bus_records]

theorem classesKept : s.ClassesKept := by
  intro b
  obtain ⟨high, h⟩ := hs.bus b
  rw [h]
  exact ⟨fun t ht => (by cases ht), fun t ht => (by cases ht)⟩

theorem queuesFit : s.QueuesFit := by
  simp [State.QueuesFit, hs.bus_records]

theorem idleSelected : s.IdleSelected := by
  simp [State.IdleSelected, hs.engine]

theorem pollRecordsHeld : s.PollRecordsHeld := by
  simp [State.PollRecordsHeld, hs.queue, hs.records]

theorem poolHolds : s.PoolHolds := by
  simp [State.PoolHolds, State.recordsTaken, hs.records, hs.waitList, hs.pollsOn]

theorem ticketsDistinct : s.TicketsDistinct := by
  simp [State.TicketsDistinct, State.ticketsInUse, hs.records, hs.waitList, hs.store, hs.nextTicket]

/-! ### Chapters 4, 5 and 6 -/

theorem storeOrdered : s.StoreOrdered := by
  simp [State.StoreOrdered, hs.store, hs.waitList]

theorem waitersAreHost : s.WaitersAreHost := by
  simp [State.WaitersAreHost, hs.waitList]

theorem targetsUsed : s.TargetsUsed := by
  simp [State.TargetsUsed, hs.records]

theorem targetsDistinct : s.TargetsDistinct := by
  simp [State.TargetsDistinct, hs.entry]

theorem ownAddressesApart : s.OwnAddressesApart := by
  simp [State.OwnAddressesApart, hs.entry]

theorem probesInQuarantine : s.ProbesInQuarantine := by
  simp [State.ProbesInQuarantine, hs.entry]

theorem probesHeld : s.ProbesHeld := by
  simp [State.ProbesHeld, hs.entry]

theorem queuesOutOfQuarantine : s.QueuesOutOfQuarantine := by
  simp [State.QueuesOutOfQuarantine, hs.queue]

theorem pollsFollowTargets : s.PollsFollowTargets := by
  simp [State.PollsFollowTargets, hs.poll]

theorem addressesSent : s.AddressesSent := by
  intro _ b t he
  rw [hs.engine b] at he
  cases he

/-! ### Chapters 2, 3 and 7 -/

theorem idleLinesFree : s.IdleLinesFree := by
  intro b hv
  rw [hs.engine b] at hv
  cases hv

theorem linesHeld : s.LinesHeld := by
  intro b hv
  rw [hs.engine b] at hv
  rcases hv with hv | hv | hv
  all_goals cases hv

theorem freeLinesHigh : s.FreeLinesHigh := by
  intro b hl
  obtain ⟨high, h⟩ := hs.bus b
  rw [h] at hl
  cases hl

theorem sendingKept : s.SendingKept := by
  intro _ b
  obtain ⟨high, h⟩ := hs.bus b
  rw [h]
  exact ⟨Nat.zero_le 9, fun _ => rfl, rfl⟩

theorem outputsKept : s.OutputsKept := by
  intro _ b
  obtain ⟨high, h⟩ := hs.bus b
  rw [h]
  exact ⟨rfl, rfl⟩

theorem pulsesFit : s.PulsesFit := by
  intro b kept n stage he
  rw [hs.engine b] at he
  cases he

theorem inboundFits : s.InboundFits := by
  simp [State.InboundFits, hs.inbound, hs.reservations]

end State.Blank

/-- Settles O60: the values by the definition of the state, the device's laws as of a blank device. -/
theorem resetStateMeetsTheLaws : Obligations.ResetStateMeetsTheLaws := by
  have hs := blank_reset
  have hbus (b : BusId) : State.reset.bus b = Bus.reset true := by simp [State.reset, State.resetValues, State.bus]
  have howed : State.reset.owed = [] := rfl
  have hafter : AfterReset .r115200 State.reset State.reset :=
    ⟨rfl, rfl, rfl, rfl, rfl, rfl, rfl, rfl, rfl, rfl, rfl, rfl, rfl, rfl, rfl, rfl, hs.entry, hs.poll,
      fun b => by rw [hbus b]; rfl⟩
  refine ⟨hafter, rfl, ⟨rfl, rfl⟩, rfl, fun b => by rw [hbus b]; rfl, ⟨Nat.zero_le _, ?_⟩, List.nodup_nil,
    ⟨Nat.zero_le _, List.nodup_nil, fun c hc => (by cases hc)⟩, fun _ => ⟨rfl, rfl⟩, hs.recordsAtHome, hs.classesKept,
    hs.queuesFit, hs.idleSelected, hs.pollRecordsHeld, hs.poolHolds, hs.storeOrdered, hs.waitersAreHost, hs.ticketsDistinct,
    hs.idleLinesFree, hs.linesHeld, hs.freeLinesHigh, hs.sendingKept, hs.outputsKept, hs.pulsesFit, hs.inboundFits,
    hs.targetsUsed, hs.pollsFollowTargets, hs.queuesOutOfQuarantine, hs.addressesSent, hs.targetsDistinct,
    hs.ownAddressesApart, hs.probesInQuarantine, hs.probesHeld, rfl, fun _ hi => (by cases hi)⟩
  rw [howed]
  exact Nat.zero_le _

end Sys2Proof.Machine
end

section
/-! SUPPORT. The deeds of the requests: what an owner's answer does to the device, each deed listed once with the checks that
have passed. A law of the device is proved over the deeds, the happenings and the passing of time. -/

namespace Sys2Proof.Machine

/-! ### Deeds -/

theorem takeFitting_append {α : Type} (size : α → Nat) (max room : Nat) (l : List α) :
    (takeFitting size max room l).1 ++ (takeFitting size max room l).2 = l := by
  induction max generalizing room l with
  | zero => rfl
  | succ max ih =>
    cases l with
    | nil => rfl
    | cons x rest =>
      rw [takeFitting]
      split
      · exact congrArg (x :: ·) (ih _ _)
      · rfl

/-- What a request does to the device, its checks passed. -/
inductive Deed (s : State) : State → Prop
  | kept {u : State} (h : u.device = s.device) : Deed s u
  | submitted {v : SubmitValues} {e : Entry} (he : s.entry v.handle = some e) (hq : e.state ≠ .quarantined)
      (hroom : (s.bus e.bus).room ≠ 0) (hfree : s.freeRecords ≠ 0) : Deed s (s.submitted v e)
  | cancelled {k : Nat} {b : BusId} {t : Txn} (hf : s.findTicket k = .queued b t) :
      Deed s ((s.setBus b ((s.bus b).dropQueued fun u => u.hasTicket k)).decideAside .cancelled t)
  | marked (b : BusId) : Deed s (s.setBus b
      { s.bus b with engine := (s.bus b).engine.mapRecord fun t => { t with cancelPending := true } })
  | flushed (b : BusId) : Deed s (s.flushBus b)
  | fetched {taken stay : List Completion} (h : taken ++ stay = s.store) : Deed s (s.refill taken stay)
  | configured {v : BusSettings} (h : (s.bus v.bus).busy = false) : Deed s (configureBus v s).1
  | statusRead (b : BusId) : Deed s (s.setBus b
      { s.bus b with pendingCleared := 0, pendingFaulted := 0, pendingRecovered := 0 })
  | busReset (b : BusId) : Deed s (s.resetBus b)
  | targetAdded {h : Handle} {e : Entry} (hh : s.entry h = none) (hn : s.targetNamed e.bus e.address = false)
      (ho : (s.bus e.bus).ownAddress ≠ some e.address) (hs : e.state = .new) (hp : e.probe = .none) :
      Deed s (s.setEntry h (some e))
  | targetRemoved {h : Handle} (hr : ∀ t ∈ s.records, t.handle ≠ h) (hp : ∀ i p, s.poll i = some p → p.handle ≠ h) :
      Deed s (s.setEntry h none)
  | targetReleased (h : Handle) : Deed s (s.releaseHandle h)
  | targetsRead (hs : List Handle) : Deed s (s.dropTargetChanges hs)
  | pollSet {v : PollValues} {e : Entry} (hp : s.poll v.index = none) (he : s.entry v.handle = some e)
      (hfree : s.freeRecords ≠ 0) : Deed s (s.setPoll v.index (some (newPoll v e)))
  | pollOff (i : PollIndex) : Deed s (s.pollOff i)
  | pollsRead (is : List PollIndex) : Deed s (s.dropPollChanges is)
  | listenSet {v : ListenSettings} (hn : s.entryAt v.bus v.ownAddress = false) : Deed s (s.setBus v.bus
      { s.bus v.bus with ownAddress := v.ownAddress, broadcastAccept := v.broadcastAccept })
  | pageSet (b : BusId) (page : List Byte) : Deed s (s.setBus b { s.bus b with page := page })
  | inboundRead {l : List Inbound} (h : l.length ≤ s.inbound.length) : Deed s { s with inbound := l }

section Answers
variable (s : State) (body : List Byte)

theorem acceptSubmit_deed (v : SubmitValues) : Deed s (acceptSubmit v s).1 := by
  cases he : s.entry v.handle with
  | none =>
    rw [acceptSubmit, he]
    exact .kept rfl
  | some e =>
    by_cases hq : e.state = .quarantined
    · simp only [acceptSubmit, he, hq, if_true]
      exact .kept rfl
    by_cases hw : (s.bus e.bus).engine.refusesWork = true
    · simp only [acceptSubmit, he, hq, hw, if_true, if_false]
      exact .kept rfl
    by_cases hroom : (s.bus e.bus).room = 0
    · simp only [acceptSubmit, he, hq, hw, hroom, if_true, if_false]
      exact .kept rfl
    by_cases hfree : s.freeRecords = 0
    · simp only [acceptSubmit, he, hq, hw, hroom, hfree, if_true, if_false]
      exact .kept rfl
    rw [acceptSubmit_ok he hq (by simpa using hw) hroom hfree]
    exact .submitted he hq hroom hfree

theorem answerSubmit_deed : Deed s (answerSubmit body s).1 := by
  unfold answerSubmit
  split
  · exact .kept rfl
  · split
    · exact .kept rfl
    · exact acceptSubmit_deed s _

theorem answerCancel_deed : Deed s (answerCancel body s).1 := by
  unfold answerCancel
  split
  · split
    · exact .kept rfl
    · unfold cancelTicket
      split
      · rename_i hf
        exact .cancelled hf
      · exact .marked _
      all_goals exact .kept rfl
  · exact .kept rfl

theorem answerQuery_deed : Deed s (answerQuery body s).1 := by
  unfold answerQuery
  split
  · split
    · exact .kept rfl
    · split <;> exact .kept rfl
  · exact .kept rfl

theorem answerFlush_deed : Deed s (answerFlush body s).1 := by
  unfold answerFlush
  split
  · split
    · exact .flushed _
    · exact .kept rfl
  · exact .kept rfl

theorem answerFetch_deed : Deed s (answerFetch body s).1 := by
  unfold answerFetch
  split
  · split
    · exact .fetched (takeFitting_append _ _ _ _)
    · exact .kept rfl
  · exact .kept rfl

theorem configureBus_deed (v : BusSettings) : Deed s (configureBus v s).1 := by
  cases h : (s.bus v.bus).busy with
  | false => exact .configured h
  | true =>
    rw [configureBus_busy h]
    exact .kept rfl

theorem answerBusConfig_deed : Deed s (answerBusConfig body s).1 := by
  unfold answerBusConfig
  split
  · split
    · exact configureBus_deed s _
    · exact .kept rfl
  · exact .kept rfl

theorem answerBusStatus_deed : Deed s (answerBusStatus body s).1 := by
  unfold answerBusStatus
  split
  · split
    · exact .statusRead _
    · exact .kept rfl
  · exact .kept rfl

theorem answerBusReset_deed : Deed s (answerBusReset body s).1 := by
  unfold answerBusReset
  split
  · split
    · split
      · exact .kept rfl
      · exact .busReset _
    · exact .kept rfl
  · exact .kept rfl

theorem targetEntry_new {f : TargetFields} {e : Entry} (h : targetEntry f = some e) :
    e.state = .new ∧ e.probe = .none := by
  unfold targetEntry at h
  split at h
  · split at h
    · rw [← Option.some.inj h]
      exact ⟨rfl, rfl⟩
    · cases h
  · cases h
  · cases h

theorem answerTargetAdd_deed : Deed s (answerTargetAdd body s).1 := by
  unfold answerTargetAdd
  split
  · exact .kept rfl
  · split
    · exact .kept rfl
    · rename_i e he
      obtain ⟨hs, hp⟩ := targetEntry_new he
      unfold addTarget
      split
      · exact .kept rfl
      · rename_i h hh
        split
        · exact .kept rfl
        · rename_i hn
          split
          · exact .kept rfl
          · rename_i ho
            exact .targetAdded ((State.freeHandle_eq_some_iff s h).mp hh).1 (by simpa using hn) ho hs hp

theorem answerTargetRemove_deed : Deed s (answerTargetRemove body s).1 := by
  unfold answerTargetRemove
  split
  · split
    · exact .kept rfl
    · rename_i h _
      split
      · exact .kept rfl
      · split
        · exact .kept rfl
        · rename_i hused
          rw [not_or, inFlight_pos_iff, pollRefs_pos_iff] at hused
          obtain ⟨hr, hp⟩ := hused
          exact .targetRemoved (fun t ht he => hr ⟨t, ht, he⟩) fun i p hi he => hp ⟨i, p, hi, he⟩
  · exact .kept rfl

theorem answerTargetRelease_deed : Deed s (answerTargetRelease body s).1 := by
  unfold answerTargetRelease
  split
  · split
    · exact .kept rfl
    · exact .targetReleased _
  · exact .kept rfl

theorem answerTargetQuery_deed : Deed s (answerTargetQuery body s).1 := by
  unfold answerTargetQuery
  split
  · split <;> exact .kept rfl
  · exact .kept rfl

theorem answerTargetChanges_deed : Deed s (answerTargetChanges body s).1 := by
  unfold answerTargetChanges
  split
  · split
    · exact .targetsRead _
    · exact .kept rfl
  · exact .kept rfl

theorem answerPollSet_deed : Deed s (answerPollSet body s).1 := by
  unfold answerPollSet
  split
  · exact .kept rfl
  · split
    · exact .kept rfl
    · unfold setPollEntry
      split
      · exact .kept rfl
      · rename_i hp
        split
        · exact .kept rfl
        · rename_i he
          split
          · exact .kept rfl
          · rename_i hfree
            exact .pollSet (by simpa using hp) he hfree

theorem answerPollOff_deed : Deed s (answerPollOff body s).1 := by
  unfold answerPollOff
  split
  · split
    · exact .kept rfl
    · exact .pollOff _
  · exact .kept rfl

theorem answerPollRead_deed : Deed s (answerPollRead body s).1 := by
  unfold answerPollRead
  split
  · split
    · exact .pollsRead _
    · exact .kept rfl
  · exact .kept rfl

theorem answerListenSet_deed : Deed s (answerListenSet body s).1 := by
  unfold answerListenSet
  split
  · split
    · unfold setListen
      split
      · exact .kept rfl
      · rename_i hn
        split
        · exact .kept rfl
        · exact .listenSet (by simpa using hn)
    · exact .kept rfl
  · exact .kept rfl

theorem answerPageSet_deed : Deed s (answerPageSet body s).1 := by
  unfold answerPageSet
  split
  · split
    · split
      · exact .pageSet _ _
      · exact .kept rfl
    · exact .kept rfl
  · exact .kept rfl

theorem answerInboundRead_deed : Deed s (answerInboundRead body s).1 := by
  unfold answerInboundRead
  split
  · rename_i max
    split
    · refine .inboundRead ?_
      have h := congrArg List.length (takeFitting_append inboundSize max.toNat Config.recordBytes s.inbound)
      rw [List.length_append] at h
      exact h ▸ Nat.le_add_left _ _
    · exact .kept rfl
  · exact .kept rfl

theorem answerHello_deed : Deed s (answerHello body s).1 := by
  unfold answerHello
  split <;> exact .kept rfl

theorem answerHubReset_deed : Deed s (answerHubReset body s).1 := by
  unfold answerHubReset
  split <;> exact .kept rfl

theorem answerAttentionMask_deed : Deed s (answerAttentionMask body s).1 := by
  unfold answerAttentionMask
  split
  · split <;> exact .kept rfl
  all_goals exact .kept rfl

theorem answerLinkConfig_deed : Deed s (answerLinkConfig body s).1 := by
  unfold answerLinkConfig
  split
  · split <;> exact .kept rfl
  · exact .kept rfl

theorem answerLinkStatus_deed : Deed s (answerLinkStatus body s).1 := by
  unfold answerLinkStatus
  split <;> exact .kept rfl

end Answers

/-- Every owner's answer is one of the deeds. -/
theorem Owner.deed {owner : State → State × Answer} (ho : Owner owner) (s : State) : Deed s (owner s).1 := by
  cases ho with
  | hello body => exact answerHello_deed s body
  | hubReset body => exact answerHubReset_deed s body
  | attentionMask body => exact answerAttentionMask_deed s body
  | linkConfig body => exact answerLinkConfig_deed s body
  | linkStatus body => exact answerLinkStatus_deed s body
  | submit body => exact answerSubmit_deed s body
  | cancel body => exact answerCancel_deed s body
  | query body => exact answerQuery_deed s body
  | flush body => exact answerFlush_deed s body
  | fetch body => exact answerFetch_deed s body
  | busConfig body => exact answerBusConfig_deed s body
  | busStatus body => exact answerBusStatus_deed s body
  | busReset body => exact answerBusReset_deed s body
  | targetAdd body => exact answerTargetAdd_deed s body
  | targetRemove body => exact answerTargetRemove_deed s body
  | targetRelease body => exact answerTargetRelease_deed s body
  | targetQuery body => exact answerTargetQuery_deed s body
  | targetChanges body => exact answerTargetChanges_deed s body
  | pollSet body => exact answerPollSet_deed s body
  | pollOff body => exact answerPollOff_deed s body
  | pollRead body => exact answerPollRead_deed s body
  | listenSet body => exact answerListenSet_deed s body
  | pageSet body => exact answerPageSet_deed s body
  | inboundRead body => exact answerInboundRead_deed s body
  | unknownKind => exact .kept rfl

/-! ### Laws of the device -/

/-- A law of the device side: kept by each happening and deed while RESET# is high, by the passing of time and the fall of
RESET#, and met by a device after reset. -/
structure DeviceLaw (P : State → Prop) : Prop where
  device : ∀ s, P s ↔ P s.device
  happening : ∀ f, DeviceHappening f → ∀ s, s.resetLow = false → P s → P (f s)
  deed : ∀ s u, Deed s u → s.resetLow = false → P s → P u
  pass : ∀ s us, P s → P (s.pass us)
  blank : ∀ s : State, s.Blank → P s
  assertReset : ∀ s : State, P s → P s.assertReset

section
variable {P : State → Prop}

theorem DeviceLaw.of_device (hP : DeviceLaw P) {s t : State} (h : t.device = s.device) (hs : P s) : P t :=
  (hP.device t).mpr (h ▸ (hP.device s).mp hs)

theorem DeviceLaw.act (hP : DeviceLaw P) {s t : State} {f : State → State} (hf : s.resetLow = false → P s → P (f s))
    (hs : P s) (h : act s f = .next t) : P t := by
  rcases act_next h with ⟨-, rfl⟩ | ⟨hl, rfl⟩
  · exact hs
  · exact hP.of_device (device_settle _) (hf hl hs)

theorem DeviceLaw.fullReset (hP : DeviceLaw P) (s : State) (rate : LinkRate) (sensed : Bool) :
    P (s.fullReset rate sensed) := hP.blank _ (blank_fullReset s rate sensed)

theorem DeviceLaw.powerUp (hP : DeviceLaw P) (s : State) : P s.powerUp := by
  unfold State.powerUp
  dsimp only
  split
  · exact hP.fullReset s _ _
  · exact hP.of_device (device_chooseFrame _) (hP.fullReset s _ _)

theorem DeviceLaw.endFrame (hP : DeviceLaw P) {s : State} (hs : P s) : P s.endFrame := by
  unfold State.endFrame
  split
  · exact hs
  · exact hP.of_device (device_chooseFrame s) hs
  · split
    · exact hP.of_device (device_chooseFrame s) hs
    · exact hP.of_device (s := s) ((device_chooseFrame _).trans rfl) hs
    · exact hP.of_device (device_chooseFrame _) (hP.fullReset s _ _)

theorem DeviceLaw.exec (hP : DeviceLaw P) (c : Instr) (s t : State) (hs : P s) (h : exec c s = .next t) : P t := by
  by_cases hn : Resets c
  · rcases hn with rfl | rfl | rfl
    · cases h
      exact hP.powerUp s
    · cases h
      split
      · exact hs
      · exact hP.assertReset s hs
    · cases h
      split
      · exact hP.powerUp _
      · exact hs
  · rcases exec_cases hn h with ⟨r, owner, -, ho, he⟩ | ⟨v, he⟩ | rfl | ⟨f, hf, he⟩
    · refine hP.act (fun hl hs => ?_) hs (he ▸ h)
      have hp : P (s.present r) := hP.of_device (device_present s r) hs
      rcases handle_cases (s.present r) r owner with hh | ⟨-, -, hh⟩
      · rw [hh]; exact hp
      · rw [hh]
        refine hP.of_device (device_placeReply _ _ _ _) (hP.deed _ _ (ho.deed _) ?_ (hP.of_device (s := s.present r) rfl hp))
        exact (resetLow_present s r).trans hl
    · exact hP.act (fun _ hs => hP.of_device (s := s) ((device_byteEffect _ _).trans rfl) hs) hs (he ▸ h)
    · exact hP.act (fun _ hs => hP.endFrame hs) hs h
    · exact hP.act (fun hl hs => hP.happening f hf s hl hs) hs (he ▸ h)

theorem DeviceLaw.step (hP : DeviceLaw P) {s t : State} (hs : P s) (h : step s = .next t) : P t :=
  step_keeps (fun s _ hs => hP.of_device (s := s) rfl hs) hP.exec
    (fun s _ hs => hP.of_device (device_settle _) (hP.pass s 1000 hs)) hs h

end

end Sys2Proof.Machine
end

section
/-! SUPPORT. The laws of the lines: what a bus does to its two lines and what it senses there, by its engine (chapters 2 and 3),
and the places of the inbound queue (R133). First the changes that leave a bus's lines alone. -/

namespace Sys2Proof.Machine

/-! ### The law of a bus -/

/-- The laws of one bus's line and outputs: `low` is the level of RESET#. -/
structure Bus.LineLaw (low : Bool) (x : Bus) : Prop where
  idle : x.engine.value = 0x01#8 → x.monitor.line = .free
  held : x.engine.value = 0x02#8 ∨ x.engine.value = 0x03#8 ∨ x.engine.value = 0x04#8 → x.monitor.line = .held
  free : x.monitor.line = .free → x.monitor.bothHigh = true
  sends : low = false → x.sendsRightly
  outputs : low = false → x.outputsRight
  pulses : ∀ kept n stage, x.engine = .clearing kept n stage → n ≤ 9 ∧ (stage = .exhausted → n = 9)

/-- Every bus meets its law, and the inbound queue with its reservations fits its places. -/
structure State.LineLaw (s : State) : Prop where
  bus : ∀ b, (s.bus b).LineLaw s.resetLow
  inbound : s.InboundFits

theorem State.lineLaw_iff (s : State) :
    s.LineLaw ↔ s.IdleLinesFree ∧ s.LinesHeld ∧ s.FreeLinesHigh ∧ s.SendingKept ∧ s.OutputsKept ∧ s.PulsesFit ∧
      s.InboundFits := by
  constructor
  · intro h
    exact ⟨fun b => (h.bus b).idle, fun b => (h.bus b).held, fun b => (h.bus b).free, fun hl b => (h.bus b).sends hl,
      fun hl b => (h.bus b).outputs hl, fun b => (h.bus b).pulses, h.inbound⟩
  · rintro ⟨hidle, hheld, hfree, hsends, houtputs, hpulses, hinbound⟩
    exact ⟨fun b => ⟨hidle b, hheld b, hfree b, fun hl => hsends hl b, fun hl => houtputs hl b, hpulses b⟩, hinbound⟩

/-! ### Changes that leave the lines alone -/

/-- A bus changed in its queue, its counters and timers, in the work of its IDLE engine, or in the marks of the record its engine
holds: what it does to its lines stays. -/
structure Bus.Alike (x y : Bus) : Prop where
  line : y.monitor.line = x.monitor.line
  bothHigh : y.monitor.bothHigh = x.monitor.bothHigh
  clockOut : y.clockOut = x.clockOut
  dataOut : y.dataOut = x.dataOut
  sending : y.sending = x.sending
  bitsPlaced : y.bitsPlaced = x.bitsPlaced
  engine : y.engine = x.engine ∨ (∃ w v, x.engine = .idle w ∧ y.engine = .idle v) ∨
    ∃ f : Txn → Txn, (∀ t, (f t).segments = t.segments ∧ (f t).progress = t.progress) ∧
      y.engine = x.engine.mapRecord f

theorem Bus.Alike.refl (x : Bus) : x.Alike x := ⟨rfl, rfl, rfl, rfl, rfl, rfl, .inl rfl⟩

theorem Engine.value_mapRecord (f : Txn → Txn) (e : Engine) : (e.mapRecord f).value = e.value := by
  unfold Engine.mapRecord
  split <;> rfl

theorem Bus.Alike.value {x y : Bus} (h : x.Alike y) : y.engine.value = x.engine.value := by
  rcases h.engine with he | ⟨w, v, hx, hy⟩ | ⟨f, -, he⟩
  · rw [he]
  · rw [hx, hy]
    rfl
  · rw [he, Engine.value_mapRecord]

theorem writeByte?_congr {t u : Txn} (hs : u.segments = t.segments) (hp : u.progress = t.progress) :
    (Work.record u).writeByte? = (Work.record t).writeByte? := by
  simp only [Work.writeByte?, hs, hp]

theorem Bus.Alike.sendsRightly {x y : Bus} (h : x.Alike y) (hx : x.sendsRightly) : y.sendsRightly := by
  unfold Bus.sendsRightly at hx ⊢
  rw [h.bitsPlaced, h.sending]
  obtain ⟨hbits, hnone, hx⟩ := hx
  refine ⟨hbits, hnone, ?_⟩
  rcases h.engine with he | ⟨w, v, hw, hv⟩ | ⟨f, hf, he⟩
  · rw [he]
    exact hx
  · rw [hw] at hx
    rw [hv]
    exact hx
  · rw [he]
    cases hxe : x.engine with
    | driving p w =>
      rw [hxe] at hx
      cases w with
      | probe k => exact hx
      | record t =>
        cases p with
        | send => exact hx.trans (writeByte?_congr (hf t).1 (hf t).2).symm
        | _ => exact hx
    | idle w => rw [hxe] at hx; rcases w with _ | _ | _ <;> exact hx
    | clearing kept n stage => rw [hxe] at hx; cases kept <;> exact hx
    | _ => rw [hxe] at hx; exact hx

theorem Bus.Alike.bitDrive {x y : Bus} (h : x.Alike y) : y.bitDrive = x.bitDrive := by
  unfold Bus.bitDrive
  rw [h.sending, h.bitsPlaced]

theorem Bus.Alike.outputsRight {x y : Bus} (h : x.Alike y) (hx : x.outputsRight) : y.outputsRight := by
  unfold Bus.outputsRight at hx ⊢
  rw [h.bitDrive, h.clockOut, h.dataOut, h.bitsPlaced]
  rcases h.engine with he | ⟨w, v, hw, hv⟩ | ⟨f, hf, he⟩
  · rw [he]
    exact hx
  · rw [hw] at hx
    rw [hv]
    exact hx
  · rw [he]
    cases hxe : x.engine with
    | driving p w =>
      rw [hxe] at hx
      cases w with
      | probe k => exact hx
      | record t => rcases p with _ | _ | _ | (_ | _) | _ | _ <;> exact hx
    | idle w => rw [hxe] at hx; rcases w with _ | _ | _ <;> exact hx
    | clearing kept n stage => rw [hxe] at hx; cases kept <;> cases stage <;> exact hx
    | _ => rw [hxe] at hx; exact hx

theorem Bus.Alike.lineLaw {x y : Bus} {low : Bool} (h : x.Alike y) (hx : x.LineLaw low) : y.LineLaw low where
  idle hv := by rw [h.line]; exact hx.idle (h.value.symm.trans hv)
  held hv := by rw [h.line]; rw [h.value] at hv; exact hx.held hv
  free hl := by rw [h.line] at hl; rw [h.bothHigh]; exact hx.free hl
  sends hl := h.sendsRightly (hx.sends hl)
  outputs hl := h.outputsRight (hx.outputs hl)
  pulses kept n stage he := by
    rcases h.engine with hy | ⟨w, v, -, hy⟩ | ⟨f, -, hy⟩
    · exact hx.pulses kept n stage (hy.symm.trans he)
    · rw [hy] at he
      cases he
    · rw [hy] at he
      cases hxe : x.engine with
      | clearing kept' n' stage' =>
        rw [hxe] at he
        cases kept' <;>
          · obtain ⟨-, rfl, rfl⟩ := Engine.clearing.inj he
            exact hx.pulses _ _ _ hxe
      | driving p w => rw [hxe] at he; cases w <;> cases he
      | idle w => rw [hxe] at he; rcases w with _ | _ | _ <;> cases he
      | _ => rw [hxe] at he; cases he

/-- The lines of every bus, the inbound queue and RESET# are left alone. -/
structure State.Alike (s u : State) : Prop where
  bus : ∀ b, (s.bus b).Alike (u.bus b)
  inbound : u.inbound = s.inbound
  resetLow : u.resetLow = s.resetLow

theorem State.reservations_eq (s : State) :
    s.reservations = allBuses.countP fun b => decide ((s.bus b).engine.value = 0x04#8) := by
  refine List.countP_congr fun b _ => ?_
  cases (s.bus b).engine <;> simp [Engine.value]

theorem State.Alike.lineLaw {s u : State} (h : s.Alike u) (hs : s.LineLaw) : u.LineLaw where
  bus b := by
    rw [h.resetLow]
    exact (h.bus b).lineLaw (hs.bus b)
  inbound := by
    have hr : u.reservations = s.reservations := by
      rw [State.reservations_eq, State.reservations_eq]
      exact List.countP_congr fun b _ => by rw [(h.bus b).value]
    rw [State.InboundFits, h.inbound, hr]
    exact hs.inbound

theorem State.Alike.of_buses {s u : State} (hb : u.buses = s.buses) (hi : u.inbound = s.inbound)
    (hl : u.resetLow = s.resetLow) : s.Alike u where
  bus b := by
    have h : u.bus b = s.bus b := by rw [State.bus, State.bus, hb]
    rw [h]
    exact .refl _
  inbound := hi
  resetLow := hl

theorem alike_setBus {s : State} {b : BusId} {x : Bus} (h : (s.bus b).Alike x) : s.Alike (s.setBus b x) where
  bus c := by
    rw [State.bus_setBus]
    split
    · rename_i hc
      exact hc ▸ h
    · exact .refl _
  inbound := rfl
  resetLow := rfl

theorem alike_conclude (s : State) (t : Txn) (o : TxnOutcome) : s.Alike (s.conclude t o) := by
  obtain ⟨st, wl, ps, h⟩ := conclude_frame s t o
  rw [h]
  exact .of_buses rfl rfl rfl

theorem alike_decideAside (s : State) (o : TxnOutcome) (t : Txn) : s.Alike (s.decideAside o t) := by
  obtain ⟨st, wl, h⟩ := decideAside_frame s o t
  rw [h]
  exact .of_buses rfl rfl rfl

theorem alike_giveUpProbe (s : State) (b : BusId) (h : Handle) : s.Alike (s.giveUpProbe b h) := by
  obtain ⟨dir, hd⟩ := giveUpProbe_frame s b h
  rw [hd]
  exact .of_buses rfl rfl rfl

theorem alike_setSubList (x : Bus) (c : TxnClass) (l : List Txn) : x.Alike (x.setSubList c l) := by
  cases c <;> exact ⟨rfl, rfl, rfl, rfl, rfl, rfl, .inl rfl⟩

theorem alike_giveBack (s : State) (t : Txn) (place : Placement) : s.Alike (s.giveBack t place) := by
  rcases giveBack_cases s t place with ⟨o, -, h⟩ | ⟨-, h⟩ | ⟨-, -, h⟩
  · rw [h]
    exact alike_decideAside s o t
  · rw [h]
    exact .of_buses rfl rfl rfl
  · rw [h]
    refine alike_setBus ?_
    cases place <;> exact alike_setSubList _ _ _

theorem alike_reportLoss (s : State) (t : Txn) : s.Alike (s.reportLoss t) := by
  unfold State.reportLoss
  dsimp only
  split
  · exact alike_giveBack s _ _
  · exact alike_conclude s _ _

theorem alike_reportRefusal (s : State) (t : Txn) : s.Alike (s.reportRefusal t) := by
  unfold State.reportRefusal
  dsimp only
  split
  · exact alike_giveBack s _ _
  · exact alike_conclude s _ _

theorem alike_unmade (s : State) (b : BusId) (w : Work) : s.Alike (s.unmade b w) := by
  cases w with
  | record t => exact alike_giveBack s t _
  | probe h => exact alike_giveUpProbe s b h

theorem alike_lost (s : State) (b : BusId) (w : Work) : s.Alike (s.lost b w) := by
  cases w with
  | record t => exact alike_reportLoss s t
  | probe h => exact alike_giveUpProbe s b h

theorem alike_concludeStalled (s : State) (t : Option Txn) (o : TxnOutcome) : s.Alike (s.concludeStalled t o) := by
  cases t with
  | none => exact .of_buses rfl rfl rfl
  | some t => exact alike_conclude s t o

theorem alike_addressAcknowledged (s : State) (h : Handle) : s.Alike (s.addressAcknowledged h) := by
  obtain ⟨dir, hd⟩ := addressAcknowledged_frame s h
  rw [hd]
  exact .of_buses rfl rfl rfl

theorem alike_probeResult (s : State) (b : BusId) (h : Handle) (ack : AckBit) : s.Alike (s.probeResult b h ack) := by
  obtain ⟨dir, ps, hd⟩ := probeResult_frame s b h ack
  rw [hd]
  exact .of_buses rfl rfl rfl

theorem alike_keeping (x : Bus) (keep : Txn → Bool) : x.Alike (keeping x keep) := ⟨rfl, rfl, rfl, rfl, rfl, rfl, .inl rfl⟩

theorem Bus.Alike.of_eq {x y : Bus} (h : y = x) : x.Alike y := h ▸ .refl x

theorem alike_quarantine (s : State) (h : Handle) (e : Entry) (n : Nat) : s.Alike (s.quarantine h e n) where
  bus b := by
    rw [bus_quarantine]
    split
    · exact alike_keeping _ _
    · exact .refl _
  inbound := by
    obtain ⟨st, wl, bs, dir, ps, hq⟩ := quarantine_frame s h e n
    rw [hq]
  resetLow := by
    obtain ⟨st, wl, bs, dir, ps, hq⟩ := quarantine_frame s h e n
    rw [hq]

theorem alike_addressRefused (s : State) (h : Handle) : s.Alike (s.addressRefused h) := by
  unfold State.addressRefused
  split
  · exact .of_buses rfl rfl rfl
  · dsimp only
    split
    · exact .of_buses rfl rfl rfl
    all_goals
      split
      · exact .of_buses rfl rfl rfl
      · exact alike_quarantine s h _ _

/-- The record chosen is a QUEUED one of a sub-list, which it leaves (R12). -/
theorem chooseRecord_some {x y : Bus} {t : Txn} (h : x.chooseRecord = some (t, y)) :
    t.notBefore = none ∧ ∃ before after,
      (x.urgent = before ++ t :: after ∧ y = { x with urgent := before ++ after }) ∨
      (x.routine = before ++ t :: after ∧ y = { x with routine := before ++ after }) := by
  have urgent (h : ((takeQueued x.urgent).map fun r => (r.1, { x with urgent := r.2 })) = some (t, y)) :
      t.notBefore = none ∧ ∃ before after, x.urgent = before ++ t :: after ∧ y = { x with urgent := before ++ after } := by
    obtain ⟨⟨u, l⟩, hu, he⟩ := Option.map_eq_some_iff.mp h
    obtain ⟨rfl, rfl⟩ := Prod.mk.inj he
    obtain ⟨before, after, hl, rfl, ht, -⟩ := takeQueued_some hu
    exact ⟨ht, before, after, hl, rfl⟩
  have routine (h : ((takeQueued x.routine).map fun r => (r.1, { x with routine := r.2 })) = some (t, y)) :
      t.notBefore = none ∧ ∃ before after, x.routine = before ++ t :: after ∧ y = { x with routine := before ++ after } := by
    obtain ⟨⟨u, l⟩, hu, he⟩ := Option.map_eq_some_iff.mp h
    obtain ⟨rfl, rfl⟩ := Prod.mk.inj he
    obtain ⟨before, after, hl, rfl, ht, -⟩ := takeQueued_some hu
    exact ⟨ht, before, after, hl, rfl⟩
  have h' : ((takeQueued x.urgent).map fun r => (r.1, ({ x with urgent := r.2 } : Bus))) = some (t, y) ∨
      ((takeQueued x.routine).map fun r => (r.1, ({ x with routine := r.2 } : Bus))) = some (t, y) := by
    unfold Bus.chooseRecord at h
    dsimp only at h
    split at h
    · exact (Option.or_eq_some_iff.mp h).elim .inr fun h => .inl h.2
    · exact (Option.or_eq_some_iff.mp h).elim .inl fun h => .inr h.2
  rcases h' with h' | h'
  · obtain ⟨ht, before, after, h'⟩ := urgent h'
    exact ⟨ht, before, after, .inl h'⟩
  · obtain ⟨ht, before, after, h'⟩ := routine h'
    exact ⟨ht, before, after, .inr h'⟩

theorem alike_select (s : State) (b : BusId) : s.Alike (s.select b) := by
  rcases select_cases s b with h | ⟨k, he, -, h⟩ | ⟨t, x, he, -, hc, h⟩
  · rw [h]
    exact .of_buses rfl rfl rfl
  · rw [h]
    have h1 : s.Alike (s.setBus b { s.bus b with engine := .idle (some (.probe k)) }) :=
      alike_setBus ⟨rfl, rfl, rfl, rfl, rfl, rfl, .inr (.inl ⟨_, _, he, rfl⟩)⟩
    exact ⟨h1.bus, rfl, rfl⟩
  · rw [h]
    refine alike_setBus ?_
    obtain ⟨-, before, after, ⟨-, rfl⟩ | ⟨-, rfl⟩⟩ := chooseRecord_some hc
    · exact ⟨rfl, rfl, rfl, rfl, rfl, rfl, .inr (.inl ⟨_, _, he, rfl⟩)⟩
    · exact ⟨rfl, rfl, rfl, rfl, rfl, rfl, .inr (.inl ⟨_, _, he, rfl⟩)⟩

theorem alike_reportStop (s : State) (b : BusId) (r : StopResult) (w : Work) : s.Alike (s.reportStop b r w) := by
  unfold State.reportStop
  split
  · have h1 : s.Alike (s.setBus b { s.bus b with okCompletions := satSucc 65535 (s.bus b).okCompletions }) :=
      alike_setBus ⟨rfl, rfl, rfl, rfl, rfl, rfl, .inl rfl⟩
    obtain ⟨st, wl, ps, h⟩ := conclude_frame
      (s.setBus b { s.bus b with okCompletions := satSucc 65535 (s.bus b).okCompletions }) _ .ok
    rw [h]
    exact ⟨h1.bus, rfl, rfl⟩
  · exact alike_conclude s _ _
  · exact alike_reportRefusal s _
  · exact .of_buses rfl rfl rfl
  · exact .of_buses rfl rfl rfl

end Sys2Proof.Machine
end

section
/-! SUPPORT. The laws of the lines through every happening of a bus: at rest, in a drive, in a clearing and in ANSWERING. -/

namespace Sys2Proof.Machine

/-! ### Buses at rest and in a drive -/

theorem Bus.LineLaw.alike {x y : Bus} {low : Bool} (hx : x.LineLaw low) (h : x.Alike y) : y.LineLaw low := h.lineLaw hx

section Buses
variable {x : Bus} {low : Bool}

theorem Bus.LineLaw.withMonitor (hx : x.LineLaw low) {m : Monitor} (hi : x.engine.value = 0x01#8 → m.line = .free)
    (hh : x.engine.value = 0x02#8 ∨ x.engine.value = 0x03#8 ∨ x.engine.value = 0x04#8 → m.line = .held)
    (hf : m.line = .free → m.bothHigh = true) : ({ x with monitor := m } : Bus).LineLaw low :=
  ⟨hi, hh, hf, hx.sends, hx.outputs, hx.pulses⟩

/-- A monitor that keeps its line HELD, or FREE with both lines high, keeps the law. -/
theorem Bus.LineLaw.sensed (hx : x.LineLaw low) {m : Monitor} (hl : m.line = x.monitor.line)
    (hf : m.line = .free → m.bothHigh = true) : ({ x with monitor := m } : Bus).LineLaw low :=
  hx.withMonitor (fun h => hl.trans (hx.idle h)) (fun h => hl.trans (hx.held h)) hf

theorem Bus.LineLaw.fallen (hx : x.LineLaw low) (hl : x.monitor.line = .held) :
    ({ x with monitor := clockFell x.monitor } : Bus).LineLaw low :=
  hx.sensed rfl fun hf => by cases hl.symm.trans hf

/-- Clock released suits every engine (R27). -/
theorem Bus.LineLaw.releaseClock (hx : x.LineLaw low) : ({ x with clockOut := .released } : Bus).LineLaw low where
  idle := hx.idle
  held := hx.held
  free := hx.free
  sends := hx.sends
  outputs hl := by
    have ho := hx.outputs hl
    unfold Bus.outputsRight at ho ⊢
    cases he : x.engine with
    | driving p w =>
      rw [he] at ho
      rcases p with _ | _ | _ | (_ | _) | _ | _
      · exact ⟨rfl, ho.2⟩
      all_goals exact ho
    | clearing kept n stage =>
      rw [he] at ho
      cases stage with
      | waiting => exact ho
      | _ => exact ⟨rfl, ho.2⟩
    | _ => rw [he] at ho; exact ⟨rfl, ho.2⟩
  pulses := hx.pulses

/-- A drive past its start may hold clock low (R32). -/
theorem Bus.LineLaw.holdClock (hx : x.LineLaw low) {p : DrivePhase} {w : Work} (he : x.engine = .driving p w)
    (hp : p ≠ .start) : ({ x with clockOut := .low } : Bus).LineLaw low where
  idle := hx.idle
  held := hx.held
  free := hx.free
  sends := hx.sends
  outputs hl := by
    have ho := hx.outputs hl
    unfold Bus.outputsRight at ho ⊢
    rw [he] at ho
    dsimp only
    rw [he]
    rcases p with _ | _ | _ | (_ | _) | _ | _
    · exact absurd rfl hp
    all_goals exact ho
  pulses := hx.pulses

theorem lineLaw_atRest {e : Engine} {m : Monitor} (hi : e.value = 0x01#8 → m.line = .free)
    (ho : e.value = 0x02#8 → m.line = .held) (hf : m.line = .free → m.bothHigh = true) (h3 : e.value ≠ 0x03#8)
    (h4 : e.value ≠ 0x04#8) (hc : ∀ kept n stage, e = .clearing kept n stage → n = 0 ∧ stage = .waiting) :
    (atRest x e m).LineLaw low where
  idle := hi
  held h := h.elim ho fun h => h.elim (fun h => absurd h h3) fun h => absurd h h4
  free := hf
  sends _ := by
    refine ⟨Nat.zero_le 9, fun _ => rfl, ?_⟩
    cases e with
    | driving p w => exact absurd rfl h3
    | answering r => exact absurd rfl h4
    | _ => rfl
  outputs _ := by
    cases e with
    | driving p w => exact absurd rfl h3
    | answering r => exact absurd rfl h4
    | clearing kept n stage =>
      obtain ⟨-, rfl⟩ := hc kept n stage rfl
      exact rfl
    | _ => exact ⟨rfl, rfl⟩
  pulses kept n stage he := by
    obtain ⟨rfl, rfl⟩ := hc kept n stage he
    exact ⟨Nat.zero_le 9, fun h => by cases h⟩

theorem lineLaw_idle {m : Monitor} (hl : m.line = .free) (hf : m.bothHigh = true) {w : Option Work} :
    (atRest x (.idle w) m).LineLaw low :=
  lineLaw_atRest (fun _ => hl) (fun h => (by cases h)) (fun _ => hf) (by simp [Engine.value]) (by simp [Engine.value])
    fun _ _ _ h => (by cases h)

theorem lineLaw_occupied {m : Monitor} (hl : m.line = .held) {hearing : Option (List Bool)} :
    (atRest x (.occupied hearing) m).LineLaw low :=
  lineLaw_atRest (fun h => by cases h) (fun _ => hl) (fun h => by cases hl.symm.trans h) (by simp [Engine.value])
    (by simp [Engine.value]) fun _ _ _ h => (by cases h)

theorem lineLaw_clearingBegun (hf : x.monitor.line = .free → x.monitor.bothHigh = true) (kept : Option Txn) :
    (clearingBegun x kept).LineLaw low := by
  have h : (atRest x (.clearing kept 0 .waiting) { x.monitor with stuckTimer := 0 }).LineLaw low :=
    lineLaw_atRest (fun h => (by cases h)) (fun h => (by cases h)) hf (by simp [Engine.value]) (by simp [Engine.value])
      fun _ _ _ h => by
        obtain ⟨-, rfl, rfl⟩ := Engine.clearing.inj h
        exact ⟨rfl, rfl⟩
  exact h.alike ⟨rfl, rfl, rfl, rfl, rfl, rfl, .inl rfl⟩

theorem bitDrive_first {v : Byte} (hs : x.sending = some v) (hn : x.bitsPlaced = 1) :
    x.bitDrive = bitOnData (v.getLsbD 7) := bitDrive_bit hs 0 hn

theorem lineLaw_inAddress {w : Work} (hx : x.LineLaw low) (he : x.engine = .driving .start w) (v : Byte) :
    (inAddress x w v).LineLaw low where
  idle h := by cases h
  held _ := hx.held (.inr (.inl (by rw [he]; rfl)))
  free := hx.free
  sends _ := ⟨(by decide : 1 ≤ 9), fun h => (by cases h), rfl⟩
  outputs _ := (bitDrive_first rfl rfl).symm
  pulses kept n stage h := by cases h

theorem lineLaw_driveOn {s : State} {b : BusId} {p : DrivePhase} {w : Work} (hl : x.monitor.line = .held) :
    (driveOn x p w (s.byteSent b p w)).LineLaw low where
  idle h := by cases h
  held _ := hl
  free hf := by cases hl.symm.trans hf
  sends _ := by
    refine ⟨?_, fun hn => ?_, ?_⟩
    · show (if (s.byteSent b p w).isSome then 1 else 0) ≤ 9
      split <;> decide
    · have hn : s.byteSent b p w = none := hn
      show (if (s.byteSent b p w).isSome then 1 else 0) = 0
      rw [hn]
      rfl
    · cases p <;> rfl
  outputs _ := by
    have hbit : (driveOn x p w (s.byteSent b p w)).bitDrive =
        if (s.byteSent b p w).any (fun v => !v.getLsbD 7) then .low else .released := by
      cases hv : s.byteSent b p w with
      | none => exact bitDrive_released (.inl rfl)
      | some v => exact (bitDrive_first rfl rfl).trans (bitOnData_first v)
    cases p with
    | start => exact ⟨rfl, rfl⟩
    | address => exact hbit.symm
    | send => exact hbit.symm
    | receive given => rcases given with _ | _ | _ <;> rfl
    | restart => rfl
    | stop r => rfl
  pulses kept n stage h := by cases h

/-! ### Bits and edges -/

/-- The bits placed of a byte stay within nine, and the byte stays (R29). -/
theorem sendsRightly_placeBit (hx : x.sendsRightly) : x.placeBit.sendsRightly := by
  cases hs : x.sending with
  | none => rwa [placeBit_none hs]
  | some v =>
    obtain ⟨-, -, he⟩ := hx
    have hp : x.placeBit.sending = some v ∧ x.placeBit.engine = x.engine ∧ x.placeBit.bitsPlaced ≤ 9 := by
      unfold Bus.placeBit
      rw [hs]
      exact ⟨rfl, rfl, Nat.min_le_left _ _⟩
    obtain ⟨hsend, heng, hbits⟩ := hp
    refine ⟨hbits, fun h => (by cases hsend.symm.trans h), ?_⟩
    rw [heng, hsend, ← hs]
    exact he

theorem dataOut_placeBit {v : Byte} (hs : x.sending = some v) : x.placeBit.dataOut = x.placeBit.bitDrive := by
  unfold Bus.placeBit
  rw [hs]
  rfl

/-- The next bit placed is what stands on data (R29). -/
theorem lineLaw_placeBit {p : DrivePhase} {w : Work} (hx : x.LineLaw low) (he : x.engine = .driving p w) (hp : p ≠ .start) :
    x.placeBit.LineLaw low := by
  cases hs : x.sending with
  | none => rwa [placeBit_none hs]
  | some v =>
    obtain ⟨n, d, hf⟩ := placeBit_frame x
    have hmon : x.placeBit.monitor = x.monitor := by rw [hf]
    have heng : x.placeBit.engine = x.engine := by rw [hf]
    refine ⟨?_, ?_, ?_, fun hl => sendsRightly_placeBit (hx.sends hl), fun hl => ?_, ?_⟩
    · rw [hmon, heng]; exact hx.idle
    · rw [hmon, heng]; exact hx.held
    · rw [hmon]; exact hx.free
    · obtain ⟨-, -, hsends⟩ := hx.sends hl
      rw [he, hs] at hsends
      have hdata := dataOut_placeBit hs
      unfold Bus.outputsRight
      rw [heng, he]
      rcases p with _ | _ | _ | (_ | _) | _ | _
      · exact absurd rfl hp
      · exact hdata
      · exact hdata
      all_goals cases hsends
    · rw [heng]; exact hx.pulses

/-- In ANSWERING the bus places its next bit, or with none to place leaves data released (R133, R136). -/
theorem lineLaw_placeBit_answering {r : Reception} {y : Bus} (hx : x.LineLaw low) (he : x.engine = .answering r)
    (hy : y = { x with monitor := clockFell x.monitor, dataOut := .released }) : y.placeBit.LineLaw low := by
  have hheld : x.monitor.line = .held := hx.held (.inr (.inr (by rw [he]; rfl)))
  obtain ⟨n, d, hf⟩ := placeBit_frame y
  have hmon : y.placeBit.monitor = clockFell x.monitor := by rw [hf, hy]
  have heng : y.placeBit.engine = .answering r := by rw [hf, hy, ← he]
  have hclock : y.placeBit.clockOut = x.clockOut := by rw [hf, hy]
  refine ⟨?_, ?_, ?_, fun hl => sendsRightly_placeBit ?_, fun hl => ?_, ?_⟩
  · rw [heng]; exact fun h => by cases h
  · rw [hmon]; exact fun _ => hheld
  · rw [hmon]; exact fun hfree => by cases hheld.symm.trans hfree
  · rw [hy]
    exact hx.sends hl
  · have ho := hx.outputs hl
    unfold Bus.outputsRight at ho ⊢
    rw [he] at ho
    rw [heng, hclock]
    refine ⟨ho.1, fun hn => ?_⟩
    cases hs : y.sending with
    | some v => exact dataOut_placeBit hs
    | none =>
      rw [placeBit_none hs] at hn
      rw [hy] at hs hn
      exact absurd ((hx.sends hl).2.1 hs) hn
  · rw [heng]; exact fun _ _ _ h => by cases h

theorem lineLaw_clockFall (hx : x.LineLaw low) (hl : x.monitor.line = .held) (byte : Work → Byte) :
    (x.clockFall byte).LineLaw low := by
  by_cases h3 : x.engine.value = 0x03#8
  · obtain ⟨p, w, he⟩ := (Engine.value_driving_iff _).mp h3
    by_cases hp : p = .start
    · rw [hp] at he
      rw [clockFall_hold he]
      have hin := lineLaw_inAddress hx he (byte w)
      have hfell : ({ inAddress x w (byte w) with monitor := clockFell x.monitor } : Bus).LineLaw low := hin.fallen hl
      exact hfell.alike ⟨rfl, rfl, rfl, rfl, rfl, rfl, .inl rfl⟩
    · rw [clockFall_driving he hp]
      have hplaced := lineLaw_placeBit (hx.fallen hl) he hp
      obtain ⟨n, d, hf⟩ := placeBit_frame { x with monitor := clockFell x.monitor }
      have heng : (Bus.placeBit { x with monitor := clockFell x.monitor }).engine = .driving p w := by rw [hf]; exact he
      exact (hplaced.holdClock heng hp).alike ⟨rfl, rfl, rfl, rfl, rfl, rfl, .inl rfl⟩
  · by_cases h4 : x.engine.value = 0x04#8
    · obtain ⟨r, he⟩ := (Engine.value_answering_iff _).mp h4
      rw [clockFall_answering he]
      exact lineLaw_placeBit_answering hx he rfl
    · rw [clockFall_still h3 h4]
      exact hx.fallen hl

theorem clockRisen_line (m : Monitor) (high : Bool) : (m.clockRisen high).line = m.line := by
  unfold Monitor.clockRisen
  split <;> rfl

theorem clockRisen_free {m : Monitor} (hf : m.line = .free → m.bothHigh = true) (high : Bool)
    (h : (m.clockRisen high).line = .free) : (m.clockRisen high).bothHigh = true := by
  have hb := hf ((clockRisen_line m high).symm.trans h)
  rw [Monitor.clockRisen, if_pos hb]
  exact hb

theorem lineLaw_clearingClockHigh (hx : x.LineLaw low) {kept : Option Txn} {n : Nat}
    (he : x.engine = .clearing kept n .waiting) {high : Bool} (hh : x.monitor.line = .held ∨ high = true) : (x.clearingClockHigh kept n high).LineLaw low := by
  have hn := hx.pulses kept n .waiting he
  have hdata (hl : low = false) : x.dataOut = .released := by
    have ho := hx.outputs hl
    unfold Bus.outputsRight at ho
    rw [he] at ho
    exact ho
  have hsends (hl : low = false) : x.bitsPlaced ≤ 9 ∧ (x.sending = none → x.bitsPlaced = 0) ∧ x.sending = none := by
    obtain ⟨hbits, hnone, hs⟩ := hx.sends hl
    rw [he] at hs
    exact ⟨hbits, hnone, hs⟩
  have hlow_free (hlow : high = false) (hf : x.monitor.line = .free) : x.monitor.fallen.bothHigh = true := by
    rcases hh with hh | hh
    · cases hh.symm.trans hf
    · cases hlow.symm.trans hh
  rcases clearingClockHigh_cases x kept n high with ⟨-, h⟩ | ⟨hlow, hlt, h⟩ | ⟨hlow, hle, h⟩
  · rw [h]
    exact ⟨fun hv => (by cases hv), fun hv => (by rcases hv with hv | hv | hv <;> cases hv), fun hf => (by cases hf), hsends,
      fun _ => ⟨rfl, rfl⟩, fun _ _ _ hc => by
        obtain ⟨-, rfl, rfl⟩ := Engine.clearing.inj hc
        exact ⟨hn.1, fun h => by cases h⟩⟩
  · rw [h]
    exact ⟨fun hv => (by cases hv), fun hv => (by rcases hv with hv | hv | hv <;> cases hv), fun hf => hlow_free hlow hf, hsends,
      hdata, fun _ _ _ hc => by
        obtain ⟨-, rfl, rfl⟩ := Engine.clearing.inj hc
        exact ⟨hlt, fun h => by cases h⟩⟩
  · rw [h]
    exact ⟨fun hv => (by cases hv), fun hv => (by rcases hv with hv | hv | hv <;> cases hv), fun hf => hlow_free hlow hf, hsends,
      fun hl => ⟨rfl, hdata hl⟩, fun _ _ _ hc => by
        obtain ⟨-, rfl, rfl⟩ := Engine.clearing.inj hc
        exact ⟨hn.1, fun _ => Nat.le_antisymm hn.1 hle⟩⟩

theorem lineLaw_clockRise (hx : x.LineLaw false) {dataHigh : Bool} (hh : x.monitor.line = .held ∨ dataHigh = true) :
    (x.clockRise dataHigh).LineLaw false := by
  have hmon := hx.sensed (clockRisen_line x.monitor (dataHigh && decide (x.dataOut = .released)))
    (clockRisen_free hx.free _)
  by_cases h3 : x.engine.value = 0x03#8
  · rw [clockRise_driving h3]
    exact hmon.releaseClock.alike ⟨rfl, rfl, rfl, rfl, rfl, rfl, .inl rfl⟩
  · by_cases hc : ∃ kept n, x.engine = .clearing kept n .waiting
    · obtain ⟨kept, n, he⟩ := hc
      have hdata : x.dataOut = .released := by
        have ho := hx.outputs rfl
        unfold Bus.outputsRight at ho
        rw [he] at ho
        exact ho
      have hrise : x.clockRise dataHigh =
          x.clearingClockHigh kept n (dataHigh && decide (x.dataOut = .released)) := by
        rw [Bus.clockRise, he]
        rfl
      rw [hrise]
      refine lineLaw_clearingClockHigh hx he (hh.imp_right fun h => ?_)
      simp [h, hdata]
    · rw [clockRise_still h3 fun kept n he => hc ⟨kept, n, he⟩]
      exact hmon

theorem lineLaw_halfOver (hx : x.LineLaw low) (byte : Work → Byte) : (x.halfOver byte).LineLaw low := by
  rw [halfOver_eq]
  split
  · rename_i w he
    exact lineLaw_inAddress hx he _
  · rename_i kept n he
    refine ⟨fun h => (by cases h), fun h => (by rcases h with h | h | h <;> cases h), hx.free, fun hl => ?_,
      fun _ => ⟨rfl, rfl⟩, fun _ _ _ h => ?_⟩
    · have hs := hx.sends hl
      unfold Bus.sendsRightly at hs
      rw [he] at hs
      exact hs
    · obtain ⟨-, rfl, rfl⟩ := Engine.clearing.inj h
      exact ⟨(hx.pulses _ _ _ he).1, fun h => by cases h⟩
  · exact hx.releaseClock
  · exact hx.releaseClock
  · exact hx

theorem lineLaw_busPass (hx : x.LineLaw low) (byte : Work → Byte) (us ms : Nat) : (x.pass byte us ms).LineLaw low := by
  have hhalf : (if us = 0 then x else x.halfOver byte).LineLaw low := by
    split
    · exact hx
    · exact lineLaw_halfOver hx byte
  have hmon : (if us = 0 then x else x.halfOver byte).monitor = x.monitor := by
    obtain ⟨e, c, d, v, n, h⟩ := halfOver_frame x byte
    split
    · rfl
    · rw [h]
  unfold Bus.pass
  dsimp only
  split
  · exact hhalf.alike ⟨(congrArg Monitor.line hmon).symm, (congrArg Monitor.bothHigh hmon).symm, rfl, rfl, rfl, rfl, .inl rfl⟩
  · exact hhalf.alike ⟨(congrArg Monitor.line hmon).symm, (congrArg Monitor.bothHigh hmon).symm, rfl, rfl, rfl, rfl, .inl rfl⟩
  all_goals exact hx.alike ⟨rfl, rfl, rfl, rfl, rfl, rfl, .inl rfl⟩

end Buses

end Sys2Proof.Machine
end

section
/-! SUPPORT. The laws of the lines kept by every happening, deed and passing of time. -/

namespace Sys2Proof.Machine

/-! ### One bus written -/

theorem allBuses_split (b : BusId) : ∃ l₁ l₂, allBuses = l₁ ++ b :: l₂ ∧ b ∉ l₁ ∧ b ∉ l₂ := by
  obtain ⟨l₁, l₂, h⟩ := List.append_of_mem (List.mem_finRange b)
  have hn : (l₁ ++ b :: l₂).Nodup := h ▸ List.nodup_finRange 4
  rw [List.nodup_append, List.nodup_cons] at hn
  exact ⟨l₁, l₂, h, fun hb => hn.2.2 b hb b List.mem_cons_self rfl, hn.2.1.1⟩

/-- A bus written changes the reservations by its own alone (R133). -/
theorem reservations_setBus (s : State) (b : BusId) (x : Bus) :
    ∃ n, s.reservations = n + (if (s.bus b).engine.value = 0x04#8 then 1 else 0) ∧
      (s.setBus b x).reservations = n + (if x.engine.value = 0x04#8 then 1 else 0) := by
  obtain ⟨l₁, l₂, h, h1, h2⟩ := allBuses_split b
  have hother (l : List BusId) (hb : b ∉ l) :
      l.countP (fun c => decide (((s.setBus b x).bus c).engine.value = 0x04#8)) =
        l.countP fun c => decide ((s.bus c).engine.value = 0x04#8) :=
    List.countP_congr fun c hc => by
      have hbc : b ≠ c := fun hbc => hb (hbc ▸ hc)
      rw [State.bus_setBus_ne s x hbc]
  rw [State.reservations_eq, State.reservations_eq, h]
  simp only [List.countP_append, List.countP_cons, hother l₁ h1, hother l₂ h2, State.bus_setBus_same, decide_eq_true_eq]
  exact ⟨_, (Nat.add_assoc _ _ _).symm, (Nat.add_assoc _ _ _).symm⟩

/-- Every bus but this one meets its law, and the inbound queue fits. -/
structure State.LineLawApart (s : State) (b : BusId) : Prop where
  bus : ∀ c, b ≠ c → (s.bus c).LineLaw s.resetLow
  inbound : s.InboundFits

namespace State.LineLawApart
variable {s : State} {b : BusId} {x : Bus}

/-- A bus written that reserves no place anew keeps the inbound queue within its places. -/
theorem inbound_setBus (hs : s.LineLawApart b) (ha : x.engine.value = 0x04#8 → (s.bus b).engine.value = 0x04#8) :
    (s.setBus b x).InboundFits := by
  obtain ⟨n, h1, h2⟩ := reservations_setBus s b x
  have hfit := hs.inbound
  rw [State.InboundFits, h1] at hfit
  rw [State.InboundFits, h2]
  refine Nat.le_trans (Nat.add_le_add_left (Nat.add_le_add_left ?_ n) _) hfit
  split
  · rename_i h
    rw [if_pos (ha h)]
  · exact Nat.zero_le _

theorem bus_setBus (hs : s.LineLawApart b) (hx : x.LineLaw s.resetLow) (c : BusId) :
    ((s.setBus b x).bus c).LineLaw s.resetLow := by
  rw [State.bus_setBus]
  split
  · exact hx
  · rename_i h
    exact hs.bus c h

theorem setBus (hs : s.LineLawApart b) (hx : x.LineLaw s.resetLow)
    (ha : x.engine.value = 0x04#8 → (s.bus b).engine.value = 0x04#8) : (s.setBus b x).LineLaw :=
  ⟨hs.bus_setBus hx, hs.inbound_setBus ha⟩

theorem written (hs : s.LineLawApart b) (ha : x.engine.value = 0x04#8 → (s.bus b).engine.value = 0x04#8) :
    (s.setBus b x).LineLawApart b :=
  ⟨fun c hc => by rw [State.bus_setBus_ne s x hc]; exact hs.bus c hc, hs.inbound_setBus ha⟩

/-- The engine goes IDLE on a line that is FREE and high, and selection is taken. -/
theorem idleAgain (hs : s.LineLawApart b) (hl : (s.bus b).monitor.line = .free) (hh : (s.bus b).monitor.bothHigh = true) :
    (s.idleAgain b).LineLaw :=
  (alike_select _ b).lineLaw (hs.setBus (lineLaw_idle hl hh) fun h => by cases h)

end State.LineLawApart

theorem State.Alike.inboundFits {s u : State} (h : s.Alike u) (hs : s.InboundFits) : u.InboundFits := by
  have hr : u.reservations = s.reservations := by
    rw [State.reservations_eq, State.reservations_eq]
    exact List.countP_congr fun b _ => by rw [(h.bus b).value]
  rw [State.InboundFits, h.inbound, hr]
  exact hs

theorem State.Alike.apart {s u : State} {b : BusId} (h : s.Alike u) (hs : s.LineLawApart b) : u.LineLawApart b :=
  ⟨fun c hc => by rw [h.resetLow]; exact (h.bus c).lineLaw (hs.bus c hc), h.inboundFits hs.inbound⟩

namespace State.LineLaw
variable {s : State} {b : BusId} {x : Bus}

theorem apart (hs : s.LineLaw) (b : BusId) : s.LineLawApart b := ⟨fun c _ => hs.bus c, hs.inbound⟩

theorem setBus (hs : s.LineLaw) (hx : x.LineLaw s.resetLow)
    (ha : x.engine.value = 0x04#8 → (s.bus b).engine.value = 0x04#8) : (s.setBus b x).LineLaw := (hs.apart b).setBus hx ha

/-- A reception that ends gives its reservation for its record (R133, R137). -/
theorem endReception (hs : s.LineLaw) (hx : x.LineLaw s.resetLow) (hold : (s.bus b).engine.value = 0x04#8)
    (hnew : x.engine.value ≠ 0x04#8) (i : Inbound) :
    ({ s.setBus b x with inbound := s.inbound ++ [i] } : State).LineLaw where
  bus := (hs.apart b).bus_setBus hx
  inbound := by
    obtain ⟨n, h1, h2⟩ := reservations_setBus s b x
    rw [if_pos hold] at h1
    rw [if_neg hnew] at h2
    have hfit := hs.inbound
    rw [State.InboundFits, h1] at hfit
    have hr : ({ s.setBus b x with inbound := s.inbound ++ [i] } : State).reservations = n + 0 := h2
    rw [State.InboundFits, hr, List.length_append, List.length_singleton]
    omega

/-- A reception opens while a place is free (R133). -/
theorem openReception (hs : s.LineLaw) (hx : x.LineLaw s.resetLow) (hroom : s.inbound.length + s.reservations < 8) :
    (s.setBus b x).LineLaw where
  bus := (hs.apart b).bus_setBus hx
  inbound := by
    obtain ⟨n, h1, h2⟩ := reservations_setBus s b x
    have hle : (if x.engine.value = 0x04#8 then 1 else 0) ≤ 1 := by split <;> decide
    show s.inbound.length + (s.setBus b x).reservations ≤ 8
    rw [h2]
    omega

theorem pass (hs : s.LineLaw) (us : Nat) : (s.pass us).LineLaw where
  bus c := by
    rw [bus_pass]
    exact lineLaw_busPass (hs.bus c) _ _ _
  inbound := by
    have hr : (s.pass us).reservations = s.reservations := by
      rw [State.reservations_eq, State.reservations_eq]
      exact List.countP_congr fun b _ => by rw [value_pass]
    have hi : (s.pass us).inbound = s.inbound := rfl
    rw [State.InboundFits, hi, hr]
    exact hs.inbound

theorem drive (hs : s.LineLaw) (hl : (s.bus b).monitor.line = .held) (p : DrivePhase) (w : Work) :
    (s.drive b p w).LineLaw := by
  rw [drive_driveOn]
  exact hs.setBus (lineLaw_driveOn hl) fun h => by cases h

theorem line_driving (hs : s.LineLaw) {p : DrivePhase} {w : Work} (he : (s.bus b).engine = .driving p w) :
    (s.bus b).monitor.line = .held := (hs.bus b).held (.inr (.inl (by rw [he]; rfl)))

theorem line_answering (hs : s.LineLaw) {r : Reception} (he : (s.bus b).engine = .answering r) :
    (s.bus b).monitor.line = .held := (hs.bus b).held (.inr (.inr (by rw [he]; rfl)))

theorem line_occupied (hs : s.LineLaw) {hearing : Option (List Bool)} (he : (s.bus b).engine = .occupied hearing) :
    (s.bus b).monitor.line = .held := (hs.bus b).held (.inl (by rw [he]; rfl))

/-- The engine goes OCCUPIED on a HELD line. -/
theorem occupied (hs : s.LineLaw) {m : Monitor} (hm : m.line = .held) (hearing : Option (List Bool)) :
    (s.setBus b (atRest (s.bus b) (.occupied hearing) m)).LineLaw :=
  hs.setBus (lineLaw_occupied hm) fun h => by cases h

/-- The engine goes IDLE on a line that is FREE and high. -/
theorem idle (hs : s.LineLaw) {m : Monitor} (hm : m.line = .free) (hh : m.bothHigh = true) :
    (s.setBus b (atRest (s.bus b) (.idle none) m)).LineLaw :=
  hs.setBus (lineLaw_idle hm hh) fun h => by cases h

theorem select (hs : s.LineLaw) (b : BusId) : (s.select b).LineLaw := (alike_select s b).lineLaw hs

/-- A loss of arbitration, with the monitor as the cause leaves it. -/
theorem lost (hs : s.LineLaw) {m : Monitor} (hi : m.line = .held) (hearing : Option (List Bool)) (w : Work) :
    ((s.setBus b (lossCounted (s.bus b) hearing m)).lost b w).LineLaw :=
  (alike_lost _ b w).lineLaw
    (hs.setBus ((lineLaw_occupied (x := s.bus b) hi).alike ⟨rfl, rfl, rfl, rfl, rfl, rfl, .inl rfl⟩) fun h => by cases h)

end State.LineLaw

/-! ### Losses, starts and stops -/

section Conditions
variable {s : State} {b : BusId}

theorem lineLaw_loseToStart (hs : s.LineLaw) (w : Work) : (s.loseToStart b w).LineLaw := by
  rw [loseToStart_eq]
  exact hs.lost rfl _ w

theorem lineLaw_loseToLow (hs : s.LineLaw) (hl : (s.bus b).monitor.line = .held) (w : Work)
    (hearing : Option (List Bool)) : (s.loseToLow b w hearing).LineLaw := by
  rw [loseToLow_eq]
  exact hs.lost (m := clockFell (s.bus b).monitor) hl _ w

end Conditions

end Sys2Proof.Machine
end

section
/-! SUPPORT. The laws of the lines kept by every happening and deed. -/

namespace Sys2Proof.Machine

section Happenings
variable {s : State} {b : BusId}

/-! ### Monitors and receptions -/

theorem lineLaw_mapMonitor (hs : s.LineLaw) {f : Monitor → Monitor}
    (hi : (s.bus b).engine.value = 0x01#8 → (f (s.bus b).monitor).line = .free)
    (hh : (s.bus b).engine.value = 0x02#8 ∨ (s.bus b).engine.value = 0x03#8 ∨ (s.bus b).engine.value = 0x04#8 →
      (f (s.bus b).monitor).line = .held)
    (hf : (f (s.bus b).monitor).line = .free → (f (s.bus b).monitor).bothHigh = true) : (s.mapMonitor b f).LineLaw :=
  hs.setBus ((hs.bus b).withMonitor hi hh hf) id

theorem lineLaw_conditionInClearing (hs : s.LineLaw) {kept : Option Txn} {n : Nat} {stage : ClearingStage}
    (he : (s.bus b).engine = .clearing kept n stage) {f : Monitor → Monitor}
    (hf : (f (s.bus b).monitor).line = .free → (f (s.bus b).monitor).bothHigh = true) :
    (s.conditionInClearing b f).LineLaw := by
  have hv : (s.bus b).engine.value = 0x05#8 := by rw [he]; rfl
  refine hs.setBus (Bus.LineLaw.releaseClock ((hs.bus b).withMonitor (fun h => ?_) (fun h => ?_) hf)) id
  · rw [hv] at h; cases h
  · rw [hv] at h; rcases h with h | h | h <;> cases h

/-- The line is FREE by a condition, and the engine goes IDLE and selects. -/
theorem lineLaw_freed_idleAgain (hs : s.LineLaw) {y : Bus} (hy : y.engine = (s.bus b).engine) (hl : y.monitor.line = .free)
    (hh : y.monitor.bothHigh = true) : ((s.setBus b y).idleAgain b).LineLaw := by
  refine ((hs.apart b).written fun h => ?_).idleAgain ?_ ?_
  · rwa [← hy]
  · rwa [State.bus_setBus_same]
  · rwa [State.bus_setBus_same]

/-- A reception ends with the line FREE, and the engine goes IDLE and selects. -/
theorem lineLaw_ended_idleAgain (hs : s.LineLaw) {r : Reception} (he : (s.bus b).engine = .answering r) {y : Bus}
    (hl : y.monitor.line = .free) (hh : y.monitor.bothHigh = true) (i : Inbound) :
    (({ s.setBus b y with inbound := s.inbound ++ [i] } : State).idleAgain b).LineLaw := by
  have hidle : ({ s.setBus b y with inbound := s.inbound ++ [i] } : State).idleAgain b =
      ({ s.setBus b (atRest y (.idle none) y.monitor) with inbound := s.inbound ++ [i] } : State).select b := by
    rw [State.idleAgain, show ({ s.setBus b y with inbound := s.inbound ++ [i] } : State).bus b = y from
      State.bus_setBus_same s b y]
    exact congrArg (fun u : State => ({ u with inbound := s.inbound ++ [i] } : State).select b)
      (State.setBus_setBus s b y _)
  rw [hidle]
  exact (hs.endReception (lineLaw_idle hl hh) (by rw [he]; rfl) (by simp [atRest, Engine.value]) i).select b

theorem lineLaw_loseToStop (hs : s.LineLaw) (w : Work) : (s.loseToStop b w).LineLaw := by
  rw [loseToStop_eq]
  have ha := alike_lost (s.setBus b (lossCounted (s.bus b) none (lineStopped (s.bus b).monitor))) b w
  have hb := ha.bus b
  rw [State.bus_setBus_same] at hb
  refine (ha.apart ((hs.apart b).written fun h => by cases h)).idleAgain ?_ ?_
  · rw [hb.line]; rfl
  · rw [hb.bothHigh]; rfl

/-! ### Conditions -/

theorem lineLaw_seeStart (hs : s.LineLaw) : (s.seeStart b).LineLaw := by
  cases he : (s.bus b).engine with
  | off =>
    rw [seeStart_still (.inl he)]
    exact lineLaw_mapMonitor hs (by simp [he, Engine.value]) (fun _ => rfl) fun h => by cases h
  | faulted =>
    rw [seeStart_still (.inr he)]
    exact lineLaw_mapMonitor hs (by simp [he, Engine.value]) (fun _ => rfl) fun h => by cases h
  | idle w =>
    cases w with
    | none =>
      rw [seeStart_hears (.inl he)]
      exact hs.occupied rfl _
    | some w =>
      rw [seeStart_idle he]
      exact (alike_unmade _ b w).lineLaw (hs.occupied rfl _)
  | occupied hearing =>
    rw [seeStart_hears (.inr ⟨hearing, he⟩)]
    exact hs.occupied rfl _
  | driving p w =>
    rw [seeStart_driving he]
    split
    · exact lineLaw_loseToStart hs w
    · exact hs
  | answering r =>
    rw [seeStart_answering he]
    exact hs.endReception (lineLaw_occupied rfl) (by rw [he]; rfl) (by simp [atRest, Engine.value]) _
  | clearing kept n stage =>
    rw [seeStart_clearing he]
    split
    · exact hs
    · exact lineLaw_conditionInClearing hs he fun h => by cases h

theorem lineLaw_seeStop (hs : s.LineLaw) : (s.seeStop b).LineLaw := by
  cases he : (s.bus b).engine with
  | off =>
    rw [seeStop_still (.inl he)]
    exact lineLaw_mapMonitor hs (fun _ => rfl) (by simp [he, Engine.value]) fun _ => rfl
  | faulted =>
    rw [seeStop_still (.inr (.inr he))]
    exact lineLaw_mapMonitor hs (fun _ => rfl) (by simp [he, Engine.value]) fun _ => rfl
  | idle w =>
    rw [seeStop_still (.inr (.inl (by rw [he]; rfl)))]
    exact lineLaw_mapMonitor hs (fun _ => rfl) (by simp [he, Engine.value]) fun _ => rfl
  | occupied hearing =>
    rw [seeStop_occupied he]
    exact lineLaw_freed_idleAgain hs (y := { s.bus b with monitor := lineStopped (s.bus b).monitor }) rfl rfl rfl
  | driving p w =>
    rw [seeStop_driving he]
    split
    · exact lineLaw_loseToStop hs w
    · exact hs
  | answering r =>
    rw [seeStop_answering he]
    exact lineLaw_ended_idleAgain hs he (y := { s.bus b with monitor := lineStopped (s.bus b).monitor }) rfl rfl _
  | clearing kept n stage =>
    rw [seeStop_clearing he]
    split
    · exact hs
    · exact lineLaw_conditionInClearing hs he fun _ => rfl

theorem lineLaw_raiseBusFree (hs : s.LineLaw) : (s.raiseBusFree b).LineLaw := by
  cases he : (s.bus b).engine with
  | off =>
    rw [raiseBusFree_still (.inl he)]
    exact lineLaw_mapMonitor hs (fun _ => rfl) (by simp [he, Engine.value]) fun _ => rfl
  | idle w =>
    rw [raiseBusFree_still (.inr (.inl (by rw [he]; rfl)))]
    exact lineLaw_mapMonitor hs (fun _ => rfl) (by simp [he, Engine.value]) fun _ => rfl
  | clearing kept n stage =>
    rw [raiseBusFree_still (.inr (.inr (by rw [he]; rfl)))]
    exact lineLaw_mapMonitor hs (fun _ => rfl) (by simp [he, Engine.value]) fun _ => rfl
  | occupied hearing =>
    rw [raiseBusFree_occupied (by rw [he]; rfl)]
    exact lineLaw_freed_idleAgain hs (y := { s.bus b with monitor := lineFreed (s.bus b).monitor }) rfl rfl rfl
  | driving p w =>
    rw [State.raiseBusFree, he]
    exact hs
  | answering r =>
    rw [raiseBusFree_answering he]
    exact lineLaw_ended_idleAgain hs he (y := { s.bus b with monitor := lineFreed (s.bus b).monitor }) rfl rfl _
  | faulted =>
    rw [raiseBusFree_faulted he]
    exact lineLaw_freed_idleAgain hs rfl rfl rfl

theorem engine_placeBit (x : Bus) : x.placeBit.engine = x.engine := by
  obtain ⟨n, d, h⟩ := placeBit_frame x
  rw [h]

/-- An edge of the clock moves no engine to another state, a start hold's phase and a clearing's stage apart. -/
theorem value_clockFall (x : Bus) (byte : Work → Byte) : (x.clockFall byte).engine.value = x.engine.value := by
  by_cases h3 : x.engine.value = 0x03#8
  · obtain ⟨p, w, he⟩ := (Engine.value_driving_iff _).mp h3
    by_cases hp : p = .start
    · rw [hp] at he
      rw [clockFall_hold he, he]
      rfl
    · rw [clockFall_driving he hp]
      exact congrArg Engine.value (engine_placeBit { x with monitor := clockFell x.monitor })
  · by_cases h4 : x.engine.value = 0x04#8
    · obtain ⟨r, he⟩ := (Engine.value_answering_iff _).mp h4
      rw [clockFall_answering he, engine_placeBit]
    · rw [clockFall_still h3 h4]

theorem value_clockRise (x : Bus) (dataHigh : Bool) : (x.clockRise dataHigh).engine.value = x.engine.value := by
  by_cases h3 : x.engine.value = 0x03#8
  · rw [clockRise_driving h3]
  · by_cases hc : ∃ kept n, x.engine = .clearing kept n .waiting
    · obtain ⟨kept, n, he⟩ := hc
      have hrise : x.clockRise dataHigh =
          x.clearingClockHigh kept n (dataHigh && decide (x.dataOut = .released)) := by
        rw [Bus.clockRise, he]
        rfl
      rw [hrise, he]
      rcases clearingClockHigh_cases x kept n (dataHigh && decide (x.dataOut = .released)) with ⟨-, h⟩ | ⟨-, -, h⟩ |
        ⟨-, -, h⟩
      all_goals rw [h]; rfl
    · rw [clockRise_still h3 fun kept n he => hc ⟨kept, n, he⟩]

theorem lineLaw_sense (hs : s.LineLaw) (hlow : s.resetLow = false) (change : SensedChange) :
    (s.sense b change).LineLaw := by
  have hx : (s.bus b).LineLaw false := hlow ▸ hs.bus b
  have hrise (dataHigh : Bool) (hh : (s.bus b).monitor.line = .held ∨ dataHigh = true) :
      (s.setBus b ((s.bus b).clockRise dataHigh)).LineLaw := by
    refine hs.setBus ?_ fun h => ?_
    · rw [hlow]
      exact lineLaw_clockRise hx hh
    · rwa [value_clockRise] at h
  unfold State.sense
  cases hl : (s.bus b).monitor.line with
  | held =>
    cases change with
    | dataFell => exact lineLaw_seeStart hs
    | clockFell data =>
      refine hs.setBus (lineLaw_clockFall (hs.bus b) hl _) fun h => ?_
      rwa [value_clockFall] at h
    | clockHigh data => exact hrise data (.inl hl)
  | free =>
    cases change with
    | dataFell => exact lineLaw_seeStart hs
    | clockFell data => exact lineLaw_seeStart hs
    | clockHigh data =>
      cases data with
      | false => exact hs
      | true =>
        dsimp only
        split
        · exact hrise true (.inr rfl)
        · exact hs

theorem lineLaw_stopTold (hs : s.LineLaw) : (s.stopTold b).LineLaw := by
  unfold State.stopTold
  split
  · exact hs
  · exact lineLaw_seeStop hs

theorem lineLaw_freeTold (hs : s.LineLaw) : (s.freeTold b).LineLaw := by
  unfold State.freeTold
  split
  · exact hs
  · exact lineLaw_raiseBusFree (hs.pass _)

/-! ### Clearings -/

/-- The engine of bus `b` enters CLEARING, a line having fallen (R38, R61). -/
theorem lineLaw_begins_clearing (hs : s.LineLaw) (hl : (s.bus b).monitor.line = .held) {y : Bus}
    (hy : y.monitor = clockFell (s.bus b).monitor) (kept : Option Txn) : (s.setBus b (clearingBegun y kept)).LineLaw := by
  refine hs.setBus (lineLaw_clearingBegun (fun h => ?_) kept) fun h => by cases h
  rw [hy] at h
  cases hl.symm.trans h

theorem lineLaw_stuckTold (hs : s.LineLaw) : (s.stuckTold b).LineLaw := by
  unfold State.stuckTold
  split
  · have hp := hs.pass (((s.bus b).monitor.stuckLimit - (s.bus b).monitor.stuckTimer) * 1000)
    generalize s.pass (((s.bus b).monitor.stuckLimit - (s.bus b).monitor.stuckTimer) * 1000) = u at hp ⊢
    cases he : (u.bus b).engine with
    | occupied hearing =>
      rw [raiseStuck_occupied he]
      exact lineLaw_begins_clearing hp (hp.line_occupied he) rfl none
    | answering r =>
      rw [raiseStuck_answering he]
      refine hp.endReception (lineLaw_clearingBegun (fun h => ?_) none) (by rw [he]; rfl)
        (by simp [clearingBegun, atRest, Engine.value]) _
      cases (hp.line_answering he).symm.trans h
    | _ => rw [State.raiseStuck, he]; exact hp
  · exact hs

theorem lineLaw_stalling (hs : s.LineLaw) {p : DrivePhase} {w : Work} (he : (s.bus b).engine = .driving p w)
    (kept : Option Txn) : (s.stalling b kept).LineLaw := by
  have hp : (s.stretchOut b).LineLaw := hs.pass _
  refine lineLaw_begins_clearing hp ((hp.bus b).held (.inr (.inl ?_))) rfl kept
  rw [State.stretchOut, value_pass, he]
  rfl

theorem lineLaw_stallBus (hs : s.LineLaw) : (s.stallBus b).LineLaw := by
  by_cases h3 : (s.bus b).engine.value = 0x03#8
  · obtain ⟨p, w, he⟩ := (Engine.value_driving_iff _).mp h3
    rw [stallBus_driving he]
    unfold State.stallTaken
    split
    · exact (alike_reportStop _ b _ _).lineLaw (lineLaw_stalling hs he none)
    · exact lineLaw_stalling hs he _
    · exact (alike_giveUpProbe _ b _).lineLaw (lineLaw_stalling hs he none)
  · rw [stallBus_out h3]
    exact hs

theorem lineLaw_endClearing (hs : s.LineLaw) : (s.endClearing b).LineLaw := by
  by_cases h5 : (s.bus b).engine.value = 0x05#8
  · obtain ⟨kept, n, stage, he⟩ := (Engine.value_clearing_iff _).mp h5
    rw [endClearing_clearing he]
    split
    · have hcleared : (s.cleared b).LineLaw :=
        hs.setBus ((lineLaw_idle (x := s.bus b) rfl rfl).alike ⟨rfl, rfl, rfl, rfl, rfl, rfl, .inl rfl⟩) fun h => by cases h
      exact ((alike_concludeStalled _ kept _).lineLaw hcleared).select b
    · exact hs
  · rw [endClearing_out h5]
    exact hs

theorem lineLaw_failed (hs : s.LineLaw) : (s.failed b).LineLaw := by
  have hrest : (atRest (s.bus b) .faulted (lineStarted (s.bus b).monitor)).LineLaw s.resetLow :=
    lineLaw_atRest (fun h => (by cases h)) (fun h => (by cases h)) (fun h => (by cases h)) (by simp [Engine.value])
      (by simp [Engine.value]) fun _ _ _ h => by cases h
  exact hs.setBus (hrest.alike ⟨rfl, rfl, rfl, rfl, rfl, rfl, .inl rfl⟩) fun h => by cases h

theorem lineLaw_failClearing (hs : s.LineLaw) : (s.failClearing b).LineLaw := by
  by_cases h5 : (s.bus b).engine.value = 0x05#8
  · obtain ⟨kept, n, stage, he⟩ := (Engine.value_clearing_iff _).mp h5
    rw [failClearing_clearing he]
    refine (alike_concludeStalled _ kept _).lineLaw (lineLaw_failed ?_)
    split
    · exact hs
    · exact hs.pass _
  · rw [failClearing_out h5]
    exact hs

/-! ### Drives -/

theorem lineLaw_makeStart (hs : s.LineLaw) : (s.makeStart b).LineLaw := by
  by_cases h : ∃ w, (s.bus b).engine = .idle (some w)
  · obtain ⟨w, he⟩ := h
    cases hl : (s.bus b).monitor.line with
    | free =>
      rw [makeStart_free he hl]
      exact hs.setBus (lineLaw_driveOn (s := s) (b := b) (p := .start) rfl) fun h => by cases h
    | held =>
      rw [makeStart_held he hl]
      exact (alike_unmade _ b w).lineLaw (hs.occupied hl _)
  · rw [makeStart_out h]
    exact hs

theorem lineLaw_addressAnswered (hs : s.LineLaw) (ack : AckBit) : (s.addressAnswered b ack).LineLaw := by
  unfold State.addressAnswered
  split
  · exact hs
  · rename_i p t he
    have hl := hs.line_driving ((Engine.drivingRecord?_eq_some_iff _ p t).mp he)
    have told {u : State} (hu : s.Alike u) (q : DrivePhase) (w : Work) : (u.drive b q w).LineLaw :=
      (hu.lineLaw hs).drive ((hu.bus b).line.trans hl) q w
    split
    · split
      · cases ack
        · exact told (alike_addressAcknowledged s _) _ _
        · exact told (alike_addressRefused s _) _ _
      · cases ack
        · exact hs.drive hl _ _
        · exact hs.drive hl _ _
    · exact hs

theorem lineLaw_probeAnswered (hs : s.LineLaw) (ack : AckBit) : (s.probeAnswered b ack).LineLaw := by
  unfold State.probeAnswered
  split
  · rename_i p h he
    split
    · have hu := alike_probeResult s b h ack
      exact (hu.lineLaw hs).drive ((hu.bus b).line.trans (hs.line_driving he)) _ _
    · exact hs
  all_goals exact hs

theorem lineLaw_writeAnswered (hs : s.LineLaw) (ack : AckBit) : (s.writeAnswered b ack).LineLaw := by
  unfold State.writeAnswered
  split
  · exact hs
  · rename_i p t he
    have hl := hs.line_driving ((Engine.drivingRecord?_eq_some_iff _ p t).mp he)
    split
    · split
      · exact hs.drive hl _ _
      · exact hs
      · exact hs
    · exact hs

theorem lineLaw_readTaken (hs : s.LineLaw) (part : ReadPart) : (s.readTaken b part).LineLaw := by
  unfold State.readTaken
  split
  · exact hs
  · rename_i p t he
    have hl := hs.line_driving ((Engine.drivingRecord?_eq_some_iff _ p t).mp he)
    split
    · split
      · exact hs.drive hl _ _
      · exact hs.drive hl _ _
      · exact hs
    · exact hs
    · exact hs

theorem lineLaw_makeRepeatedStart (hs : s.LineLaw) : (s.makeRepeatedStart b).LineLaw := by
  by_cases h : ∃ t, (s.bus b).engine = .driving .restart (.record t)
  · obtain ⟨t, he⟩ := h
    rw [makeRepeatedStart_restart he]
    exact hs.setBus (lineLaw_driveOn (s := s) (b := b) (p := .address) rfl) fun h => by cases h
  · rw [makeRepeatedStart_out h]
    exact hs

theorem lineLaw_releaseStop (hs : s.LineLaw) (rose : Bool) : (s.releaseStop b rose).LineLaw := by
  by_cases h : ∃ r w, (s.bus b).engine = .driving (.stop r) w
  · obtain ⟨r, w, he⟩ := h
    cases rose with
    | true =>
      rw [releaseStop_rose he]
      exact ((alike_reportStop _ b r w).lineLaw (hs.idle rfl rfl)).select b
    | false =>
      rw [releaseStop_held he]
      exact (alike_reportStop _ b r w).lineLaw (hs.occupied (m := clockFell (s.bus b).monitor) (hs.line_driving he) _)
  · rw [releaseStop_out h]
    exact hs

theorem lineLaw_arbitrationLoss (hs : s.LineLaw) (cause : LossCause) : (s.arbitrationLoss b cause).LineLaw := by
  unfold State.arbitrationLoss
  split
  · rename_i p w he
    have hl := hs.line_driving he
    split
    · split
      · split
        · exact lineLaw_loseToLow hs hl w _
        · split
          · exact lineLaw_loseToLow hs hl w _
          · exact hs
      · exact hs
    · split
      · exact lineLaw_loseToLow hs hl w _
      · exact hs
    · split
      · exact lineLaw_loseToLow hs hl w _
      · exact hs
    · split
      · exact lineLaw_loseToStart hs w
      · exact hs
    · split
      · exact lineLaw_loseToStop hs w
      · exact hs
  all_goals exact hs

/-! ### Receptions -/

/-- A reception goes on with the byte it gives in hand, clock being released (R133, R135, R136). -/
theorem lineLaw_answering {x : Bus} {low : Bool} (hl : x.monitor.line = .held)
    (hc : low = false → x.clockOut = .released) (r : Reception) (data : Drive) :
    ({ x with engine := .answering r, dataOut := data, sending := r.byteGiven, bitsPlaced := 0
              monitor := clockFell x.monitor } : Bus).LineLaw low where
  idle h := by cases h
  held _ := hl
  free hf := by cases hl.symm.trans hf
  sends _ := ⟨Nat.zero_le 9, fun _ => rfl, rfl⟩
  outputs h := ⟨hc h, fun hn => absurd rfl hn⟩
  pulses _ _ _ h := by cases h

theorem clockOut_answering (hs : s.LineLaw) {r : Reception} (he : (s.bus b).engine = .answering r)
    (hl : s.resetLow = false) : (s.bus b).clockOut = .released := by
  have ho := (hs.bus b).outputs hl
  unfold Bus.outputsRight at ho
  rw [he] at ho
  exact ho.1

theorem clockOut_occupied (hs : s.LineLaw) {hearing : Option (List Bool)} (he : (s.bus b).engine = .occupied hearing)
    (hl : s.resetLow = false) : (s.bus b).clockOut = .released := by
  have ho := (hs.bus b).outputs hl
  unfold Bus.outputsRight at ho
  rw [he] at ho
  exact ho.1

theorem lineLaw_addressHeard (hs : s.LineLaw) (value : Byte) : (s.addressHeard b value).LineLaw := by
  by_cases h : ∃ known, (s.bus b).engine = .occupied (some known)
  · obtain ⟨known, he⟩ := h
    by_cases hp : known.isPrefixOf (bitsOf value) = true
    · have hl := hs.line_occupied he
      cases ha : s.admitted b value with
      | none =>
        rw [addressHeard_passed he hp ha]
        exact hs.occupied (m := clockFell (s.bus b).monitor) hl _
      | some r =>
        have hroom : s.inbound.length + s.reservations < 8 := by
          by_contra hfull
          rw [admitted_full (Nat.not_lt.mp hfull)] at ha
          cases ha
        rw [addressHeard_admitted he hp ha, mapMonitor_answer]
        exact hs.openReception (lineLaw_answering hl (clockOut_occupied hs he) r .low) hroom
    · rw [addressHeard_other he hp]
      exact hs
  · rw [addressHeard_out h]
    exact hs

theorem lineLaw_writeIn (hs : s.LineLaw) (value : Byte) : (s.writeIn b value).LineLaw := by
  by_cases h : ∃ r, (s.bus b).engine = .answering r ∧ r.kind = .write
  · obtain ⟨r, he, hk⟩ := h
    have hg : (r.takeByte value).byteGiven = none := byteGiven_write ((takeByte_kind r value).trans hk)
    rw [writeIn_write he hk, ← hg]
    exact hs.setBus (lineLaw_answering (hs.line_answering he) (clockOut_answering hs he) _ _) fun _ => by rw [he]; rfl
  · rw [writeIn_out h]
    exact hs

theorem lineLaw_readOut (hs : s.LineLaw) (ack : AckBit) : (s.readOut b ack).LineLaw := by
  by_cases h : ∃ r, (s.bus b).engine = .answering r ∧ r.kind = .read
  · obtain ⟨r, he, hk⟩ := h
    cases hc : r.closed with
    | true =>
      rw [readOut_closed he hk hc]
      exact hs
    | false =>
      rw [readOut_open he hk hc]
      have hx := lineLaw_answering (hs.line_answering he) (clockOut_answering hs he) (r.giveByte ack) .released
      refine hs.setBus (lineLaw_placeBit_answering hx rfl rfl) fun _ => by rw [he]; rfl
  · rw [readOut_out h]
    exact hs

/-! ### Timers of records, probes and polls -/

theorem alike_dropQueued (p : Txn → Bool) : s.Alike (s.setBus b ((s.bus b).dropQueued p)) :=
  alike_setBus (alike_keeping _ _)

theorem lineLaw_expireTicket (hs : s.LineLaw) (k : Nat) : (s.expireTicket k).LineLaw := by
  unfold State.expireTicket
  split
  · split
    · exact hs
    · exact (alike_decideAside _ _ _).lineLaw ((alike_dropQueued _).lineLaw (hs.pass _))
  · split
    · exact hs
    · exact hs.pass _
  all_goals exact hs

theorem lineLaw_endGap (hs : s.LineLaw) (n : RecordName) : (s.endGap n).LineLaw := by
  unfold State.endGap
  split
  · exact hs
  · split
    · exact hs
    · rename_i c _ _ _ due _
      have hq : (s.passTo due).Alike ((s.passTo due).setBus c (((s.passTo due).bus c).mapQueued (fun t => t.named n)
          fun t => { t with notBefore := none })) := alike_setBus ⟨rfl, rfl, rfl, rfl, rfl, rfl, .inl rfl⟩
      exact (hq.lineLaw (hs.pass _)).select c

theorem lineLaw_probeTimerOut (hs : s.LineLaw) (h : Handle) : (s.probeTimerOut h).LineLaw := by
  unfold State.probeTimerOut
  split
  · exact hs
  · rename_i e _
    split
    · rename_i r _
      have hu : (s.pass (r * 1000)).Alike ((s.pass (r * 1000)).setEntry h (some { e with probe := .due })) :=
        .of_buses rfl rfl rfl
      exact (hu.lineLaw (hs.pass _)).select e.bus
    all_goals exact hs

theorem lineLaw_periodOut (hs : s.LineLaw) (i : PollIndex) : (s.periodOut i).LineLaw := by
  unfold State.periodOut
  split
  · exact hs
  · split
    · exact hs
    · rename_i r _
      have set (p : Option Poll) : ((s.pass (r * 1000)).setPoll i p).LineLaw :=
        (State.Alike.of_buses (s := s.pass (r * 1000)) (u := (s.pass (r * 1000)).setPoll i p) rfl rfl rfl).lineLaw
          (hs.pass _)
      dsimp only
      split
      · exact set _
      · split
        · refine State.LineLaw.select ((alike_setBus ?_).lineLaw (set _)) _
          exact alike_setSubList _ _ _
        · exact set _

end Happenings

end Sys2Proof.Machine
end

section
/-! SUPPORT. The laws of the lines kept by every deed of a request, and so by every step. -/

namespace Sys2Proof.Machine

section Deeds
variable {s : State}

theorem alike_foldl_decideAside (o : TxnOutcome) (ts : List Txn) (s : State) :
    s.Alike (ts.foldl (fun u t => u.decideAside o t) s) := by
  obtain ⟨st, wl, h⟩ := decideAside_foldl_frame o ts s
  rw [h]
  exact .of_buses rfl rfl rfl

theorem alike_abandon (s : State) (b : BusId) (e : Engine) : s.Alike (s.abandon b e) := by
  unfold State.abandon
  split
  · exact alike_conclude s _ _
  · exact alike_giveUpProbe s b _
  · exact alike_conclude s _ _
  · exact .of_buses rfl rfl rfl
  · exact alike_giveUpProbe s b _
  · exact alike_conclude s _ _
  all_goals exact .of_buses rfl rfl rfl

theorem alike_releaseHandle (s : State) (h : Handle) : s.Alike (s.releaseHandle h) := by
  unfold State.releaseHandle
  split
  · split
    · exact .of_buses rfl rfl rfl
    · exact .of_buses rfl rfl rfl
  · exact .of_buses rfl rfl rfl

theorem Txn.orphan_keeps (t : Txn) : t.orphan.segments = t.segments ∧ t.orphan.progress = t.progress := by
  unfold Txn.orphan
  split <;> exact ⟨rfl, rfl⟩

theorem alike_pollOff (s : State) (i : PollIndex) : s.Alike (s.pollOff i) := by
  cases hp : s.poll i with
  | none =>
    rw [pollOff_off hp]
    exact .of_buses rfl rfl rfl
  | some p =>
    refine ⟨fun b => ?_, by rw [pollOff_frame], by rw [pollOff_frame]⟩
    rw [bus_pollOff (by rw [hp]; simp)]
    refine ⟨rfl, rfl, rfl, rfl, rfl, rfl, .inr (.inr ⟨fun t => if t.ofPoll i then t.orphan else t, fun t => ?_, rfl⟩)⟩
    dsimp only
    split
    · exact t.orphan_keeps
    · exact ⟨rfl, rfl⟩

theorem lineLaw_flushBus (hs : s.LineLaw) (b : BusId) : (s.flushBus b).LineLaw :=
  (alike_foldl_decideAside _ _ _).lineLaw ((alike_dropQueued _).lineLaw hs)

theorem lineLaw_submitted (hs : s.LineLaw) (v : SubmitValues) (e : Entry) : (s.submitted v e).LineLaw := by
  have hnext : s.Alike { s with nextTicket := ticketAfter s.issueTicket } := .of_buses rfl rfl rfl
  exact ((alike_setBus (alike_setSubList _ _ _)).lineLaw (hnext.lineLaw hs)).select e.bus

theorem lineLaw_resetBus (hs : s.LineLaw) (b : BusId) : (s.resetBus b).LineLaw := by
  rw [resetBus_eq]
  have hbegun : (clearingBegun (s.bus b) none).LineLaw s.resetLow := lineLaw_clearingBegun (hs.bus b).free none
  exact (alike_abandon _ b _).lineLaw
    (hs.setBus (hbegun.alike ⟨rfl, rfl, rfl, rfl, rfl, rfl, .inl rfl⟩) fun h => by cases h)

/-! ### BUS_CONFIG -/

/-- A monitor configured stands FREE and high, or as it stood (R41). -/
theorem configure_cases (m : Monitor) (freeTime stuckLimit : Nat) :
    ((m.configure freeTime stuckLimit).line = .free ∧ (m.configure freeTime stuckLimit).bothHigh = true) ∨
    ((m.configure freeTime stuckLimit).line = m.line ∧ (m.configure freeTime stuckLimit).bothHigh = m.bothHigh) := by
  unfold Monitor.configure
  dsimp only
  split
  · exact .inl ⟨rfl, rfl⟩
  · exact .inr ⟨rfl, rfl⟩

theorem lineLaw_configureBus (hs : s.LineLaw) {v : BusSettings} (hb : (s.bus v.bus).busy = false) :
    (configureBus v s).1.LineLaw := by
  have hcases := configure_cases (s.bus v.bus).monitor v.freeTime v.stuckLimit
  have hfree (h : ((s.bus v.bus).configured v).monitor.line = .free) :
      ((s.bus v.bus).configured v).monitor.bothHigh = true := by
    rcases hcases with ⟨-, hh⟩ | ⟨hl, hh⟩
    · exact hh
    · exact hh.trans ((hs.bus v.bus).free (hl.symm.trans h))
  cases he : v.enable with
  | false =>
    rw [configureBus_disables hb he]
    exact hs.setBus (lineLaw_atRest (fun h => (by cases h)) (fun h => (by cases h)) hfree (by simp [Engine.value])
      (by simp [Engine.value]) fun _ _ _ h => by cases h) fun h => by cases h
  | true =>
    have hidles (hf : ((s.bus v.bus).configured v).monitor.line = .free) : (configureBus v s).1.LineLaw := by
      rw [configureBus_idles hb he (.inr hf)]
      exact (hs.setBus (lineLaw_idle hf (hfree hf)) fun h => by cases h).select v.bus
    by_cases ho : (s.bus v.bus).engine = .off
    · cases hl : ((s.bus v.bus).configured v).monitor.line with
      | held =>
        rw [configureBus_held ho he hl]
        exact hs.setBus (lineLaw_occupied hl) fun h => by cases h
      | free => exact hidles hl
    · have hi : (s.bus v.bus).engine = .idle none := by
        by_contra hi
        rw [Bus.busy_eq_true ho (.inl hi)] at hb
        cases hb
      refine hidles ?_
      rcases hcases with ⟨hl, -⟩ | ⟨hl, -⟩
      · exact hl
      · exact hl.trans ((hs.bus v.bus).idle (by rw [hi]; rfl))

theorem State.LineLaw.alike {u : State} (hs : s.LineLaw) (h : s.Alike u) : u.LineLaw := h.lineLaw hs

theorem lineLaw_deed {u : State} (h : Deed s u) (hs : s.LineLaw) : u.LineLaw := by
  cases h with
  | kept h =>
    have hb : u.buses = s.buses := (congrArg State.buses h : u.device.buses = s.device.buses)
    have hi : u.inbound = s.inbound := (congrArg State.inbound h : u.device.inbound = s.device.inbound)
    have hl : u.resetLow = s.resetLow := (congrArg State.resetLow h : u.device.resetLow = s.device.resetLow)
    exact hs.alike (.of_buses hb hi hl)
  | submitted he hq hroom hfree => exact lineLaw_submitted hs _ _
  | cancelled hf => exact (alike_decideAside _ _ _).lineLaw ((alike_dropQueued _).lineLaw hs)
  | marked b =>
    exact hs.alike (alike_setBus ⟨rfl, rfl, rfl, rfl, rfl, rfl, .inr (.inr
    ⟨fun t => { t with cancelPending := true }, fun t => ⟨rfl, rfl⟩, rfl⟩)⟩)
  | flushed b => exact lineLaw_flushBus hs b
  | fetched h => exact hs.alike (.of_buses rfl rfl rfl)
  | configured h => exact lineLaw_configureBus hs h
  | statusRead b => exact hs.alike (alike_setBus ⟨rfl, rfl, rfl, rfl, rfl, rfl, .inl rfl⟩)
  | busReset b => exact lineLaw_resetBus hs b
  | targetAdded hh hn ho hs' hp => exact hs.alike (.of_buses rfl rfl rfl)
  | targetRemoved hr hp => exact hs.alike (.of_buses rfl rfl rfl)
  | targetReleased h => exact (alike_releaseHandle s h).lineLaw hs
  | targetsRead hs' =>
    rw [dropTargetChanges_frame]
    exact hs.alike (.of_buses rfl rfl rfl)
  | pollSet hp he hfree => exact hs.alike (.of_buses rfl rfl rfl)
  | pollOff i => exact (alike_pollOff s i).lineLaw hs
  | pollsRead is =>
    rw [dropPollChanges_frame]
    exact hs.alike (.of_buses rfl rfl rfl)
  | listenSet hn => exact hs.alike (alike_setBus ⟨rfl, rfl, rfl, rfl, rfl, rfl, .inl rfl⟩)
  | pageSet b page => exact hs.alike (alike_setBus ⟨rfl, rfl, rfl, rfl, rfl, rfl, .inl rfl⟩)
  | inboundRead h =>
    refine ⟨hs.bus, ?_⟩
    have hfit := hs.inbound
    exact Nat.le_trans (Nat.add_le_add_right h _) hfit

end Deeds

theorem lineLaw_happening {f : State → State} (hf : DeviceHappening f) (s : State) (hl : s.resetLow = false)
    (hs : s.LineLaw) : (f s).LineLaw := by
  cases hf with
  | gapTimerExpiry =>
    unfold State.gapOut
    split
    · exact hs
    · have hp := hs.pass ((Config.gapLimit + 1 - s.receiver.gapTimer) * 1000)
      exact ⟨hp.bus, hp.inbound⟩
  | deadlineExpiry k => exact lineLaw_expireTicket hs k
  | retryGapEnd n => exact lineLaw_endGap hs n
  | pollPeriodExpiry i => exact lineLaw_periodOut hs i
  | probeTimerExpiry h => exact lineLaw_probeTimerOut hs h
  | startSeen b change => exact lineLaw_sense hs hl change
  | stopSeen b => exact lineLaw_stopTold hs
  | busFree b => exact lineLaw_freeTold hs
  | stuck b => exact lineLaw_stuckTold hs
  | startMade b => exact lineLaw_makeStart hs
  | addressByteAnswered b ack => exact lineLaw_addressAnswered hs ack
  | writeByteAnswered b ack => exact lineLaw_writeAnswered hs ack
  | readByteTaken b part => exact lineLaw_readTaken hs part
  | repeatedStartMade b => exact lineLaw_makeRepeatedStart hs
  | stopReleased b rose => exact lineLaw_releaseStop hs rose
  | arbitrationLost b cause => exact lineLaw_arbitrationLoss hs cause
  | probeAnswered b ack => exact lineLaw_probeAnswered hs ack
  | stall b => exact lineLaw_stallBus hs
  | cleared b => exact lineLaw_endClearing hs
  | clearingFailed b => exact lineLaw_failClearing hs
  | addressByteHeard b v => exact lineLaw_addressHeard hs v
  | writeInByte b v => exact lineLaw_writeIn hs v
  | readOutByte b ack => exact lineLaw_readOut hs ack

/-- With RESET# low no bus drives its lines, and what it senses stays. -/
theorem lineLaw_assertReset {s : State} (hs : s.LineLaw) : s.assertReset.LineLaw where
  bus b := by
    rw [bus_assertReset]
    have hx := hs.bus b
    exact ⟨hx.idle, hx.held, hx.free, fun h => (by cases h), fun h => (by cases h), hx.pulses⟩
  inbound := by
    have hr : s.assertReset.reservations = s.reservations := by
      rw [State.reservations_eq, State.reservations_eq]
      exact List.countP_congr fun b _ => by rw [bus_assertReset]
    have hi : s.assertReset.inbound = s.inbound := rfl
    rw [State.InboundFits, hi, hr]
    exact hs.inbound

theorem deviceLaw_lineLaw : DeviceLaw State.LineLaw where
  device s := s.lineLaw_iff.trans (Iff.trans Iff.rfl s.device.lineLaw_iff.symm)
  happening _ hf s hl hs := lineLaw_happening hf s hl hs
  deed _ _ h _ hs := lineLaw_deed h hs
  pass _ us hs := hs.pass us
  blank s h := s.lineLaw_iff.mpr ⟨h.idleLinesFree, h.linesHeld, h.freeLinesHigh, h.sendingKept, h.outputsKept, h.pulsesFit,
    h.inboundFits⟩
  assertReset _ hs := lineLaw_assertReset hs

/-- Settles O57: the laws of each bus and the inbound places are a law of the device. -/
theorem stepKeepsTheLineAndInboundLaws : Obligations.StepKeepsTheLineAndInboundLaws := by
  intro s t hs h
  rw [← State.lineLaw_iff] at hs ⊢
  exact deviceLaw_lineLaw.step hs h

end Sys2Proof.Machine
end

section
/-! SUPPORT. What a record, an entry and a poll are to the laws of the pool and the directory, and the changes that leave all
that: a quiet change moves no record, ends no probe and puts no entry in or out of quarantine. -/

namespace Sys2Proof.Machine

/-! ### What the laws read -/

/-- What the laws read of a record: its origin, its target and its bus. -/
def Txn.core (t : Txn) : Origin × Handle × BusId := (t.origin, t.handle, t.bus)

/-- What the laws read of an entry: its target, whether it is QUARANTINED, and its probe status less the timer. -/
def Entry.core (e : Entry) : (BusId × BusAddress) × Bool × Bool × Bool × Bool :=
  ((e.bus, e.address), e.state == .quarantined, e.probe == .none, e.probe == .due, e.probe == .issued)

/-- What the laws read of a poll: its target, and whether it is PAUSED. -/
def Poll.core (p : Poll) : Handle × Bool := (p.handle, p.state == .paused)

/-- The probe an engine holds, its acknowledge bit not taken. -/
def Engine.awaited : Engine → Option Handle
  | .idle (some (.probe h)) => some h
  | .driving (.stop _) (.probe _) => none
  | .driving _ (.probe h) => some h
  | _ => none

theorem Engine.awaitsProbe_iff (e : Engine) (h : Handle) : e.awaitsProbe h = true ↔ e.awaited = some h := by
  cases e with
  | idle w => rcases w with _ | _ | _ <;> simp [Engine.awaitsProbe, Engine.awaited]
  | driving p w => cases w <;> cases p <;> simp [Engine.awaitsProbe, Engine.awaited]
  | _ => simp [Engine.awaitsProbe, Engine.awaited]

theorem Txn.core_eq {t u : Txn} : t.core = u.core ↔ t.origin = u.origin ∧ t.handle = u.handle ∧ t.bus = u.bus := by
  simp [Txn.core]

theorem beq_eq_beq {α : Type} [BEq α] [LawfulBEq α] {a b c d : α} : ((a == b) = (c == d)) ↔ (a = b ↔ c = d) := by
  rw [Bool.eq_iff_iff, beq_iff_eq, beq_iff_eq]

theorem Entry.core_eq {e f : Entry} : e.core = f.core ↔ (e.bus = f.bus ∧ e.address = f.address) ∧
    (e.state = .quarantined ↔ f.state = .quarantined) ∧ (e.probe = .none ↔ f.probe = .none) ∧
    (e.probe = .due ↔ f.probe = .due) ∧ (e.probe = .issued ↔ f.probe = .issued) := by
  simp only [Entry.core, Prod.mk.injEq, beq_eq_beq]

theorem Poll.core_eq {p q : Poll} : p.core = q.core ↔ p.handle = q.handle ∧ (p.state = .paused ↔ q.state = .paused) := by
  simp only [Poll.core, Prod.mk.injEq, beq_eq_beq]

/-! ### Quiet changes -/

/-- The address byte that bus `b` sends in `u` for the record stood there in `s`, or is the one `s` gives (R30, R46). -/
def AddressStands (s u : State) (b : BusId) (t : Txn) : Prop :=
  (∃ t', (s.bus b).engine = .driving .address (.record t') ∧ t'.handle = t.handle ∧
    (Work.record t').reads = (Work.record t).reads ∧ (u.bus b).sending = (s.bus b).sending) ∨
  (u.bus b).sending = some (s.addressSent (s.bus b) (.record t))

/-- A change that moves no record and no probe, and leaves each target and each quarantine. -/
structure Quiet (s u : State) : Prop where
  nextTicket : u.nextTicket = s.nextTicket
  store : u.store = s.store
  waitList : u.waitList = s.waitList
  resetLow : u.resetLow = s.resetLow
  entry : ∀ h, (u.entry h).map Entry.core = (s.entry h).map Entry.core
  poll : ∀ i, (u.poll i).map Poll.core = (s.poll i).map Poll.core
  urgent : ∀ b, (u.bus b).urgent = (s.bus b).urgent
  routine : ∀ b, (u.bus b).routine = (s.bus b).routine
  ownAddress : ∀ b, (u.bus b).ownAddress = (s.bus b).ownAddress
  record : ∀ b, (u.bus b).engine.record?.map Txn.core = (s.bus b).engine.record?.map Txn.core
  awaited : ∀ b, (u.bus b).engine.awaited = (s.bus b).engine.awaited
  idle : ∀ b, (u.bus b).engine = .idle none → (s.bus b).engine = .idle none
  address : ∀ b t, (u.bus b).engine = .driving .address (.record t) → AddressStands s u b t

/-- The bus of `x` in place of bus `y`: its queue and own address as before, its engine with the same work. -/
structure Bus.Quiet (y x : Bus) : Prop where
  urgent : x.urgent = y.urgent
  routine : x.routine = y.routine
  ownAddress : x.ownAddress = y.ownAddress
  record : x.engine.record?.map Txn.core = y.engine.record?.map Txn.core
  awaited : x.engine.awaited = y.engine.awaited
  idle : x.engine = .idle none → y.engine = .idle none

theorem Bus.Quiet.of_engine {x y : Bus} (hu : x.urgent = y.urgent) (hr : x.routine = y.routine)
    (ho : x.ownAddress = y.ownAddress) (he : x.engine = y.engine) : y.Quiet x :=
  ⟨hu, hr, ho, by rw [he], by rw [he], fun h => he ▸ h⟩

theorem addressStands_same {s u : State} {b : BusId} (he : (u.bus b).engine = (s.bus b).engine)
    (hs : (u.bus b).sending = (s.bus b).sending) {t : Txn} (h : (u.bus b).engine = .driving .address (.record t)) :
    AddressStands s u b t := .inl ⟨t, he.symm.trans h, rfl, rfl, hs⟩

/-- A state whose buses are quiet, its directory, polls and results as before. -/
theorem Quiet.of_buses {s u : State} (hn : u.nextTicket = s.nextTicket) (hst : u.store = s.store)
    (hw : u.waitList = s.waitList) (hl : u.resetLow = s.resetLow) (he : ∀ h, u.entry h = s.entry h)
    (hp : ∀ i, u.poll i = s.poll i) (hb : ∀ b, (s.bus b).Quiet (u.bus b))
    (ha : ∀ b t, (u.bus b).engine = .driving .address (.record t) → AddressStands s u b t) : Quiet s u :=
  ⟨hn, hst, hw, hl, fun h => by rw [he], fun i => by rw [hp], fun b => (hb b).urgent, fun b => (hb b).routine,
    fun b => (hb b).ownAddress, fun b => (hb b).record, fun b => (hb b).awaited, fun b => (hb b).idle, ha⟩

/-- A bus written quietly. -/
theorem quiet_setBus {s : State} {b : BusId} {x : Bus} (hx : (s.bus b).Quiet x)
    (ha : ∀ t, x.engine = .driving .address (.record t) →
      (∃ t', (s.bus b).engine = .driving .address (.record t') ∧ t'.handle = t.handle ∧
        (Work.record t').reads = (Work.record t).reads ∧ x.sending = (s.bus b).sending) ∨
      x.sending = some (s.addressSent (s.bus b) (.record t))) : Quiet s (s.setBus b x) := by
  refine .of_buses rfl rfl rfl rfl (fun h => rfl) (fun i => rfl) (fun c => ?_) fun c t ht => ?_
  · rw [State.bus_setBus]
    split
    · rename_i h
      exact h ▸ hx
    · exact .of_engine rfl rfl rfl rfl
  · by_cases h : b = c
    · subst h
      rw [State.bus_setBus_same] at ht
      unfold AddressStands
      rw [State.bus_setBus_same]
      exact ha t ht
    · rw [State.bus_setBus_ne s x h] at ht
      refine addressStands_same ?_ ?_ ((State.bus_setBus_ne s x h).symm ▸ ht)
      · rw [State.bus_setBus_ne s x h]
      · rw [State.bus_setBus_ne s x h]

/-- A bus written with its queue, own address, engine and byte as before. -/
theorem quiet_setBus_same {s : State} {b : BusId} {x : Bus} (hu : x.urgent = (s.bus b).urgent)
    (hr : x.routine = (s.bus b).routine) (ho : x.ownAddress = (s.bus b).ownAddress)
    (he : x.engine = (s.bus b).engine) (hs : x.sending = (s.bus b).sending) : Quiet s (s.setBus b x) :=
  quiet_setBus (.of_engine hu hr ho he) fun t ht => .inl ⟨t, he ▸ ht, rfl, rfl, hs⟩

/-- A bus written quietly whose engine sends no address byte for a record. -/
theorem quiet_setBus_else {s : State} {b : BusId} {x : Bus} (hx : (s.bus b).Quiet x)
    (ha : ∀ t, x.engine ≠ .driving .address (.record t)) : Quiet s (s.setBus b x) :=
  quiet_setBus hx fun t ht => absurd ht (ha t)

/-- The directory and the polls written quietly. -/
theorem Quiet.of_tables {s u : State} (hb : u.buses = s.buses) (hn : u.nextTicket = s.nextTicket) (hst : u.store = s.store)
    (hw : u.waitList = s.waitList) (hl : u.resetLow = s.resetLow)
    (he : ∀ h, (u.entry h).map Entry.core = (s.entry h).map Entry.core)
    (hp : ∀ i, (u.poll i).map Poll.core = (s.poll i).map Poll.core) : Quiet s u := by
  have hbus (b : BusId) : u.bus b = s.bus b := by rw [State.bus, State.bus, hb]
  exact ⟨hn, hst, hw, hl, he, hp, fun b => by rw [hbus], fun b => by rw [hbus], fun b => by rw [hbus],
    fun b => by rw [hbus], fun b => by rw [hbus], fun b h => by rwa [hbus] at h,
    fun b t ht => addressStands_same (by rw [hbus]) (by rw [hbus]) ht⟩

theorem quiet_setEntry {s : State} {h : Handle} {e f : Entry} (he : s.entry h = some e) (hf : f.core = e.core) :
    Quiet s (s.setEntry h (some f)) := by
  refine .of_tables rfl rfl rfl rfl rfl (fun k => ?_) fun i => rfl
  rw [State.entry_setEntry]
  split
  · rename_i hk
    rw [← hk, he]
    exact congrArg some hf
  · rfl

theorem quiet_setPoll {s : State} {i : PollIndex} {p q : Poll} (hp : s.poll i = some p) (hq : q.core = p.core) :
    Quiet s (s.setPoll i (some q)) := by
  refine .of_tables rfl rfl rfl rfl rfl (fun h => rfl) fun j => ?_
  rw [State.poll_setPoll]
  split
  · rename_i hj
    rw [← hj, hp]
    exact congrArg some hq
  · rfl

/-! ### Time is quiet -/

theorem core_entryPass (e : Entry) (ms : Nat) : (e.pass ms).core = e.core := by
  unfold Entry.pass
  split
  · rename_i r h
    simp [Entry.core_eq, h]
  all_goals rfl

theorem core_pollPass (p : Poll) (ms : Nat) : (p.pass ms).core = p.core := by
  unfold Poll.pass
  split
  · rename_i r h
    simp [Poll.core_eq, h]
  · rfl

/-- Time leaves the work of an engine; a start hold's end leads to ADDRESS with the byte begun (R44). -/
theorem halfOver_work (x : Bus) (byte : Work → Byte) :
    (x.halfOver byte).engine.awaited = x.engine.awaited ∧
    ((x.halfOver byte).engine = .idle none → x.engine = .idle none) ∧
    ∀ t, (x.halfOver byte).engine = .driving .address (.record t) →
      (x.engine = .driving .address (.record t) ∧ (x.halfOver byte).sending = x.sending) ∨
      (x.halfOver byte).sending = some (byte (.record t)) := by
  rw [halfOver_eq]
  split
  · rename_i w he
    refine ⟨?_, fun h => (by cases h), fun t h => .inr ?_⟩
    · rw [he]
      cases w <;> rfl
    · obtain ⟨-, rfl⟩ := Engine.driving.inj h
      rfl
  · rename_i kept n he
    refine ⟨?_, fun h => (by cases h), fun t h => by cases h⟩
    rw [he]
    rfl
  all_goals exact ⟨rfl, id, fun t h => .inl ⟨h, rfl⟩⟩

theorem busPass_work (x : Bus) (byte : Work → Byte) (us ms : Nat) :
    (x.pass byte us ms).engine.record? = x.engine.record? ∧ (x.pass byte us ms).engine.awaited = x.engine.awaited ∧
    ((x.pass byte us ms).engine = .idle none → x.engine = .idle none) ∧
    ∀ t, (x.pass byte us ms).engine = .driving .address (.record t) →
      (x.engine = .driving .address (.record t) ∧ (x.pass byte us ms).sending = x.sending) ∨
      (x.pass byte us ms).sending = some (byte (.record t)) := by
  obtain ⟨ha, hi, hb⟩ := halfOver_work x byte
  have hr := halfOver_record x byte
  unfold Bus.pass
  dsimp only
  split
  · dsimp only
    split
    · exact ⟨rfl, rfl, id, fun t h => .inl ⟨h, rfl⟩⟩
    · exact ⟨hr, ha, hi, hb⟩
  · dsimp only
    split
    · exact ⟨rfl, rfl, id, fun t h => .inl ⟨h, rfl⟩⟩
    · exact ⟨hr, ha, hi, hb⟩
  all_goals exact ⟨rfl, rfl, id, fun t h => .inl ⟨h, rfl⟩⟩

theorem quiet_pass (s : State) (us : Nat) : Quiet s (s.pass us) := by
  have hwork (b : BusId) := busPass_work (s.bus b) (s.addressSent (s.bus b)) us (s.msIn us)
  have hframe (b : BusId) := Bus.pass_frame (s.bus b) (s.addressSent (s.bus b)) us (s.msIn us)
  refine ⟨rfl, rfl, rfl, rfl, fun h => ?_, fun i => ?_, fun b => ?_, fun b => ?_, fun b => ?_, fun b => ?_, fun b => ?_,
    fun b h => ?_, fun b t ht => ?_⟩
  · rw [entry_pass, Option.map_map]
    exact Option.map_congr fun e _ => core_entryPass e _
  · rw [poll_pass, Option.map_map]
    exact Option.map_congr fun p _ => core_pollPass p _
  · rw [bus_pass]
    obtain ⟨e, c, d, v, n, m, k, h⟩ := hframe b
    rw [h]
  · rw [bus_pass]
    obtain ⟨e, c, d, v, n, m, k, h⟩ := hframe b
    rw [h]
  · rw [bus_pass]
    obtain ⟨e, c, d, v, n, m, k, h⟩ := hframe b
    rw [h]
  · rw [bus_pass, (hwork b).1]
  · rw [bus_pass, (hwork b).2.1]
  · rw [bus_pass] at h
    exact (hwork b).2.2.1 h
  · unfold AddressStands
    rw [bus_pass] at ht ⊢
    exact ((hwork b).2.2.2 t ht).imp_left fun ⟨he, hs⟩ => ⟨t, he, rfl, rfl, hs⟩

/-! ### Changes of the tables -/

theorem quiet_addressAcknowledged (s : State) (h : Handle) : Quiet s (s.addressAcknowledged h) := by
  unfold State.addressAcknowledged
  split
  · exact .of_tables rfl rfl rfl rfl rfl (fun _ => rfl) fun _ => rfl
  · rename_i e he
    split
    · exact .of_tables rfl rfl rfl rfl rfl (fun _ => rfl) fun _ => rfl
    all_goals
      rename_i hs
      exact quiet_setEntry he (by simp [Entry.core_eq, hs])

theorem quiet_dropTargetChanges (s : State) (hs : List Handle) : Quiet s (s.dropTargetChanges hs) := by
  have hframe := dropTargetChanges_frame s hs
  refine .of_tables (by rw [hframe]) (by rw [hframe]) (by rw [hframe]) (by rw [hframe]) (by rw [hframe]) (fun h => ?_)
    fun i => by rw [hframe]; rfl
  rw [entry_dropTargetChanges]
  split
  · rw [Option.map_map]
    rfl
  · rfl

theorem quiet_dropPollChanges (s : State) (is : List PollIndex) : Quiet s (s.dropPollChanges is) := by
  have hframe := dropPollChanges_frame s is
  refine .of_tables (by rw [hframe]) (by rw [hframe]) (by rw [hframe]) (by rw [hframe]) (by rw [hframe])
    (fun h => by rw [hframe]; rfl) fun i => ?_
  rw [poll_dropPollChanges]
  split
  · rw [Option.map_map]
    rfl
  · rfl

theorem core_takeOk (p : Poll) (bytes : List Byte) : (p.takeOk bytes).core = p.core := by
  unfold Poll.takeOk
  dsimp only
  split
  · rfl
  · split
    · rfl
    · split <;> rfl

theorem quiet_pollOutcome (s : State) (i : PollIndex) (o : TxnOutcome) (bytes : List Byte) :
    Quiet s (s.pollOutcome i o bytes) := by
  refine .of_tables rfl rfl rfl rfl rfl (fun h => rfl) fun j => ?_
  rw [State.pollOutcome, State.poll_setPoll]
  split
  · rename_i hj
    rw [hj, Option.map_map]
    refine Option.map_congr fun p _ => ?_
    show (if o = .ok then p.takeOk bytes else p.takeFailure o).core = p.core
    split
    · exact core_takeOk p bytes
    · rfl
  · rfl

end Sys2Proof.Machine
end

section
/-! SUPPORT. Laws of the records: a law of the device that speaks of the records in queues and engines, of their tickets, of
entries and polls. A record on its way from one place to another is in hand, and the law says what holds meanwhile; it is then
enough to show it for each single move. -/

namespace Sys2Proof.Machine

/-- What is on its way on bus `bus`: records that have left its queue or engine, a probe that has left its engine, and whether
selection there is still to come. -/
structure Hand where
  bus : BusId
  records : List Txn
  probe : Option Handle
  selects : Bool

/-- The bus `x` in place of `y`: its queue as before, its engine empty. -/
structure Bus.Left (y x : Bus) : Prop where
  urgent : x.urgent = y.urgent
  routine : x.routine = y.routine
  ownAddress : x.ownAddress = y.ownAddress
  record : x.engine.record? = none
  awaited : x.engine.awaited = none

/-- A law of the records: `P` between happenings, `Q` with something in hand. -/
structure RecordLaw (P : State → Prop) (Q : Hand → State → Prop) : Prop where
  device : ∀ s, P s ↔ P s.device
  empty : ∀ b s, Q ⟨b, [], none, false⟩ s ↔ P s
  /-- Changes that move nothing. -/
  quiet : ∀ {k s u}, Quiet s u → Q k s → Q k u
  /-- An engine gives its work out of its hands. -/
  leave : ∀ {s b x}, (s.bus b).Left x → P s →
    Q ⟨b, (s.bus b).engine.record?.toList, (s.bus b).engine.awaited, decide (x.engine = .idle none)⟩ (s.setBus b x)
  /-- A record is decided, or freed, or placed in its queue. -/
  conclude : ∀ {b t t' ts p g s} (o : TxnOutcome), t'.core = t.core → Q ⟨b, t :: ts, p, g⟩ s →
    Q ⟨b, ts, p, g⟩ (s.conclude t' o)
  free : ∀ {b t ts p g s}, Q ⟨b, t :: ts, p, g⟩ s → Q ⟨b, ts, p, g⟩ s
  place : ∀ {b t t' ts p g s} (pl : Placement), t'.core = t.core → s.quarantined t'.handle = false → t'.isOrphan = false →
    ((s.bus b).engine = .idle none → g = true) → Q ⟨b, t :: ts, p, g⟩ s →
    Q ⟨b, ts, p, g⟩ (s.setBus t'.bus ((s.bus t'.bus).place t' pl))
  /-- A probe is given up, or its result has come. -/
  giveUpProbe : ∀ {b ts h g s}, ((s.bus b).engine = .idle none → g = true) → Q ⟨b, ts, some h, g⟩ s →
    Q ⟨b, ts, none, g⟩ (s.giveUpProbe b h)
  endProbe : ∀ {b ts h g s}, (∀ e, s.entry h = some e → ¬ (e.probe = .issued ∧ e.bus = b)) → Q ⟨b, ts, some h, g⟩ s →
    Q ⟨b, ts, none, g⟩ s
  /-- Selection, and what comes before it. -/
  select : ∀ {b g s}, Q ⟨b, [], none, g⟩ s → P (s.select b)
  filed : ∀ {s t e}, s.entry t.handle = some e → e.state ≠ .quarantined → (s.bus e.bus).records.length < 16 →
    s.freeRecords ≠ 0 → t.origin = .host s.issueTicket → t.bus = e.bus → P s →
    Q ⟨e.bus, [], none, true⟩
      (({ s with nextTicket := ticketAfter s.issueTicket } : State).setBus e.bus ((s.bus e.bus).joinTail t))
  called : ∀ {s i p t e}, s.poll i = some p → p.state ≠ .paused → s.entry p.handle = some e →
    (∀ u ∈ s.records, u.origin ≠ .poll i false) → (s.bus e.bus).records.length < 16 → t.origin = .poll i false →
    t.handle = p.handle → t.bus = e.bus → P s →
    Q ⟨e.bus, [], none, true⟩ (s.setBus e.bus ((s.bus e.bus).joinTail t))
  requeue : ∀ {s b} (p : Txn → Bool), P s →
    Q ⟨b, [], none, true⟩ (s.setBus b ((s.bus b).mapQueued p fun t => { t with notBefore := none }))
  probeDue : ∀ {s h e r}, s.entry h = some e → e.probe = .timing r → P s →
    Q ⟨e.bus, [], none, true⟩ (s.setEntry h (some { e with probe := .due }))
  /-- Records leave a queue. -/
  takeOut : ∀ {s b} (p : Txn → Bool), P s →
    Q ⟨b, (s.bus b).queue.filter p, none, false⟩ (s.setBus b ((s.bus b).dropQueued p))
  /-- A probe's refusal, the end and the beginning of a quarantine. -/
  unissued : ∀ {s h e r} (n : Nat), s.entry h = some e → e.probe = .issued → P s →
    P (s.setEntry h (some { e with refusals := n, probe := .timing r }))
  release : ∀ {s h e}, s.entry h = some e → P s → P (s.release h e)
  markOut : ∀ {s h e} (n : Nat), s.entry h = some e → e.state ≠ .quarantined →
    (∀ t ∈ (s.bus e.bus).queue, t.handle ≠ h) → P s → P ((s.setEntry h (some (e.out n))).pausePolls h)
  /-- The deeds of requests that no move above tells. -/
  refill : ∀ {s taken stay}, taken ++ stay = s.store → P s → P (s.refill taken stay)
  pollSet : ∀ {s v e}, s.poll v.index = none → s.entry v.handle = some e → s.freeRecords ≠ 0 → P s →
    P (s.setPoll v.index (some (newPoll v e)))
  pollOff : ∀ {s i}, s.poll i ≠ none → P s → P (s.pollOff i)
  targetAdded : ∀ {s h e}, s.entry h = none → s.targetNamed e.bus e.address = false →
    (s.bus e.bus).ownAddress ≠ some e.address → e.state = .new → e.probe = .none → P s → P (s.setEntry h (some e))
  targetRemoved : ∀ {s h}, (∀ t ∈ s.records, t.handle ≠ h) → (∀ i p, s.poll i = some p → p.handle ≠ h) → P s →
    P (s.setEntry h none)
  listenSet : ∀ {s} {v : ListenSettings}, s.entryAt v.bus v.ownAddress = false → P s → P (s.setBus v.bus
    { s.bus v.bus with ownAddress := v.ownAddress, broadcastAccept := v.broadcastAccept })
  blank : ∀ s : State, s.Blank → P s
  assertReset : ∀ s : State, P s → P s.assertReset

end Sys2Proof.Machine
end

section
/-! SUPPORT. A law of the records through the operations of the pool and the directory: returns, reports, quarantines, drives
and edges. -/

namespace Sys2Proof.Machine

/-- Work on its way out of its engine. -/
def Work.hand (b : BusId) (g : Bool) : Work → Hand
  | .record t => ⟨b, [t], none, g⟩
  | .probe h => ⟨b, [], some h, g⟩

/-! ### Engines that keep their work -/

theorem Engine.record?_driving (p q : DrivePhase) (t u : Txn) (h : t.core = u.core) :
    (Engine.driving p (.record t)).record?.map Txn.core = (Engine.driving q (.record u)).record?.map Txn.core :=
  congrArg some h

theorem Engine.awaited_driving_record (p : DrivePhase) (t : Txn) : (Engine.driving p (.record t)).awaited = none := by
  cases p <;> rfl

theorem Engine.awaited_driving_probe {p : DrivePhase} (hp : ∀ r, p ≠ .stop r) (h : Handle) :
    (Engine.driving p (.probe h)).awaited = some h := by
  cases p with
  | stop r => exact absurd rfl (hp r)
  | _ => rfl

theorem Engine.awaited_mapRecord (f : Txn → Txn) (e : Engine) : (e.mapRecord f).awaited = e.awaited := by
  cases e with
  | idle w => rcases w with _ | _ | _ <;> rfl
  | driving p w =>
    cases w with
    | record t => exact (awaited_driving_record p (f t)).trans (awaited_driving_record p t).symm
    | probe h => rfl
  | clearing kept n stage => cases kept <;> rfl
  | _ => rfl

theorem Engine.mapRecord_eq_idle {f : Txn → Txn} {e : Engine} (h : e.mapRecord f = .idle none) : e = .idle none := by
  cases e with
  | idle w =>
    rcases w with _ | _ | _
    · rfl
    all_goals cases h
  | driving p w => cases w <;> cases h
  | clearing kept n stage => cases kept <;> cases h
  | _ => cases h

theorem Engine.mapRecord_eq_driving {f : Txn → Txn} {e : Engine} {p : DrivePhase} {t : Txn}
    (h : e.mapRecord f = .driving p (.record t)) : ∃ u, e = .driving p (.record u) ∧ t = f u := by
  cases e with
  | idle w => rcases w with _ | _ | _ <;> cases h
  | driving q w =>
    cases w with
    | record u =>
      cases h
      exact ⟨u, rfl, rfl⟩
    | probe k => cases h
  | clearing kept n stage => cases kept <;> cases h
  | _ => cases h

/-- The engine goes on driving for the work it has. -/
theorem quiet_drive {s : State} {b : BusId} {q : DrivePhase} {v : Work}
    (hr : (Engine.driving q v).record?.map Txn.core = (s.bus b).engine.record?.map Txn.core)
    (ha : (Engine.driving q v).awaited = (s.bus b).engine.awaited) : Quiet s (s.drive b q v) := by
  obtain ⟨n, d, hx⟩ := placeBit_frame { s.bus b with
    engine := .driving q v, clockOut := q.clockDrive, dataOut := q.dataDrive, sending := s.byteSent b q v
    bitsPlaced := 0, stretchTimer := 0, monitor := (s.bus b).monitor.fallen }
  rw [State.drive, hx]
  refine quiet_setBus ⟨rfl, rfl, rfl, hr, ha, fun h => by cases h⟩ fun t ht => .inr ?_
  obtain ⟨rfl, rfl⟩ := Engine.driving.inj ht
  rfl

/-- The engine goes on driving for its record, changed in what no law reads. -/
theorem quiet_drive_record {s : State} {b : BusId} {p q : DrivePhase} {t u : Txn}
    (he : (s.bus b).engine = .driving p (.record t)) (hc : u.core = t.core) : Quiet s (s.drive b q (.record u)) := by
  refine quiet_drive ?_ ?_
  · rw [he]
    exact Engine.record?_driving q p u t hc
  · rw [he, Engine.awaited_driving_record, Engine.awaited_driving_record]

theorem addressStands_refl {s : State} {b : BusId} {t : Txn} (h : (s.bus b).engine = .driving .address (.record t)) :
    AddressStands s s b t := addressStands_same rfl rfl h

theorem Quiet.refl (s : State) : Quiet s s :=
  ⟨rfl, rfl, rfl, rfl, fun _ => rfl, fun _ => rfl, fun _ => rfl, fun _ => rfl, fun _ => rfl, fun _ => rfl, fun _ => rfl,
    fun _ h => h, fun _ _ h => addressStands_refl h⟩

/-- A change of the queues' order, the receptions and the settings alone. -/
theorem Quiet.of_kept {s u : State} (hb : u.buses = s.buses) (hd : u.directory = s.directory) (hp : u.polls = s.polls)
    (hn : u.nextTicket = s.nextTicket) (hst : u.store = s.store) (hw : u.waitList = s.waitList)
    (hl : u.resetLow = s.resetLow) : Quiet s u :=
  .of_tables hb hn hst hw hl (fun h => by rw [State.entry, State.entry, hd]) fun i => by rw [State.poll, State.poll, hp]

theorem quiet_mapMonitor (s : State) (b : BusId) (f : Monitor → Monitor) : Quiet s (s.mapMonitor b f) :=
  quiet_setBus_same rfl rfl rfl rfl rfl

/-- An edge of the clock leaves the work of an engine; a start hold's end leads to ADDRESS with the byte begun (R44). -/
theorem quiet_clockFall (s : State) (b : BusId) :
    Quiet s (s.setBus b ((s.bus b).clockFall (s.addressSent (s.bus b)))) := by
  by_cases h3 : (s.bus b).engine.value = 0x03#8
  · obtain ⟨p, w, he⟩ := (Engine.value_driving_iff _).mp h3
    by_cases hp : p = .start
    · rw [hp] at he
      rw [clockFall_hold he]
      refine quiet_setBus ⟨rfl, rfl, rfl, ?_, ?_, fun h => by cases h⟩ fun t ht => .inr ?_
      · rw [he]
        cases w <;> rfl
      · rw [he]
        cases w <;> rfl
      · obtain ⟨-, rfl⟩ := Engine.driving.inj ht
        rfl
    · rw [clockFall_driving he hp]
      obtain ⟨n, d, hx⟩ := placeBit_frame { s.bus b with monitor := clockFell (s.bus b).monitor }
      rw [hx]
      exact quiet_setBus_same rfl rfl rfl rfl rfl
  · by_cases h4 : (s.bus b).engine.value = 0x04#8
    · obtain ⟨r, he⟩ := (Engine.value_answering_iff _).mp h4
      rw [clockFall_answering he]
      obtain ⟨n, d, hx⟩ := placeBit_frame { s.bus b with monitor := clockFell (s.bus b).monitor, dataOut := .released }
      rw [hx]
      exact quiet_setBus_same rfl rfl rfl rfl rfl
    · rw [clockFall_still h3 h4]
      exact quiet_setBus_same rfl rfl rfl rfl rfl

theorem quiet_clearingClockHigh {s : State} {b : BusId} {kept : Option Txn} {n : Nat} {stage : ClearingStage}
    (he : (s.bus b).engine = .clearing kept n stage) (dataHigh : Bool) :
    Quiet s (s.setBus b ((s.bus b).clearingClockHigh kept n dataHigh)) := by
  have still (m : Nat) (g : ClearingStage) (x : Bus) (hu : x.urgent = (s.bus b).urgent)
      (hr : x.routine = (s.bus b).routine) (ho : x.ownAddress = (s.bus b).ownAddress)
      (hx : x.engine = .clearing kept m g) : Quiet s (s.setBus b x) := by
    refine quiet_setBus_else ⟨hu, hr, ho, ?_, ?_, fun h => by rw [hx] at h; cases h⟩ fun t h => by rw [hx] at h; cases h
    · rw [hx, he]
      cases kept <;> rfl
    · rw [hx, he]
      rfl
  unfold Bus.clearingClockHigh
  split
  · exact still _ _ _ rfl rfl rfl rfl
  · split
    · exact still _ _ _ rfl rfl rfl rfl
    · exact still _ _ _ rfl rfl rfl rfl

theorem quiet_clockRise (s : State) (b : BusId) (dataHigh : Bool) :
    Quiet s (s.setBus b ((s.bus b).clockRise dataHigh)) := by
  by_cases h3 : (s.bus b).engine.value = 0x03#8
  · rw [clockRise_driving h3]
    exact quiet_setBus_same rfl rfl rfl rfl rfl
  · by_cases hc : ∃ kept n, (s.bus b).engine = .clearing kept n .waiting
    · obtain ⟨kept, n, he⟩ := hc
      have hrise : (s.bus b).clockRise dataHigh =
          (s.bus b).clearingClockHigh kept n (dataHigh && decide ((s.bus b).dataOut = .released)) := by
        rw [Bus.clockRise, he]
        rfl
      rw [hrise]
      exact quiet_clearingClockHigh he _
    · rw [clockRise_still h3 fun kept n he => hc ⟨kept, n, he⟩]
      exact quiet_setBus_same rfl rfl rfl rfl rfl

namespace RecordLaw
variable {P : State → Prop} {Q : Hand → State → Prop} (hP : RecordLaw P Q)
include hP

/-! ### Between happenings -/

theorem moved {s u : State} (h : Quiet s u) (hs : P s) : P u :=
  (hP.empty 0 u).mp (hP.quiet h ((hP.empty 0 s).mpr hs))

theorem of_device {s u : State} (h : u.device = s.device) (hs : P s) : P u :=
  (hP.device u).mpr (h ▸ (hP.device s).mp hs)

theorem pass {s : State} (us : Nat) (hs : P s) : P (s.pass us) := hP.moved (quiet_pass s us) hs

/-- An engine that holds nothing enters another state in which it holds nothing. -/
theorem changed {s : State} {b : BusId} {x : Bus} (hx : (s.bus b).Left x) (hr : (s.bus b).engine.record? = none)
    (ha : (s.bus b).engine.awaited = none) (hi : x.engine ≠ .idle none) (hs : P s) : P (s.setBus b x) := by
  have h := hP.leave hx hs
  rw [hr, ha, decide_eq_false hi] at h
  exact (hP.empty b _).mp h

/-- An engine that holds nothing goes IDLE and selects. -/
theorem idles {s : State} {b : BusId} {x : Bus} (hx : (s.bus b).Left x) (hr : (s.bus b).engine.record? = none)
    (ha : (s.bus b).engine.awaited = none) (hs : P s) : P ((s.setBus b x).select b) := by
  have h := hP.leave hx hs
  rw [hr, ha] at h
  exact hP.select h

/-- An engine gives its work out of its hands. -/
theorem left {s : State} {b : BusId} {x : Bus} {w : Work} (hx : (s.bus b).Left x)
    (hw : (s.bus b).engine.record?.toList = (w.hand b false).records ∧ (s.bus b).engine.awaited = (w.hand b false).probe)
    (hs : P s) : Q (w.hand b (decide (x.engine = .idle none))) (s.setBus b x) := by
  have h := hP.leave hx hs
  rw [hw.1, hw.2] at h
  cases w <;> exact h

/-! ### Returns and reports -/

section Returns
variable {b : BusId} {t u : Txn} {g : Bool} {s : State}

theorem decideAside {ts : List Txn} {p : Option Handle} (o : TxnOutcome) (hc : u.core = t.core) (hh : u.isHost = true)
    (h : Q ⟨b, t :: ts, p, g⟩ s) : Q ⟨b, ts, p, g⟩ (s.decideAside o u) := by
  rw [decideAside_isHost hh]
  exact hP.conclude o hc h

theorem giveBack (place : Placement) (hc : u.core = t.core) (hg : (s.bus b).engine = .idle none → g = true)
    (h : Q ⟨b, [t], none, g⟩ s) : Q ⟨b, [], none, g⟩ (s.giveBack u place) := by
  rcases giveBack_cases s u place with ⟨o, hh, he⟩ | ⟨-, he⟩ | ⟨hq, ho, he⟩
  · rw [he]
    exact hP.decideAside o hc hh h
  · rw [he]
    exact hP.free h
  · rw [he]
    exact hP.place place hc hq ho hg h

theorem reportRefusal (hg : (s.bus b).engine = .idle none → g = true) (h : Q ⟨b, [t], none, g⟩ s) :
    Q ⟨b, [], none, g⟩ (s.reportRefusal t) := by
  unfold State.reportRefusal
  dsimp only
  split
  · exact hP.giveBack _ (t := t) rfl hg h
  · exact hP.conclude _ (t := t) rfl h

theorem reportLoss (hg : (s.bus b).engine = .idle none → g = true) (h : Q ⟨b, [t], none, g⟩ s) :
    Q ⟨b, [], none, g⟩ (s.reportLoss t) := by
  unfold State.reportLoss
  dsimp only
  split
  · exact hP.giveBack _ (t := t) rfl hg h
  · exact hP.conclude _ (t := t) rfl h

theorem unmade {w : Work} (hg : (s.bus b).engine = .idle none → g = true) (h : Q (w.hand b g) s) :
    Q ⟨b, [], none, g⟩ (s.unmade b w) := by
  cases w with
  | record t => exact hP.giveBack _ rfl hg h
  | probe k => exact hP.giveUpProbe hg h

theorem lost {w : Work} (hg : (s.bus b).engine = .idle none → g = true) (h : Q (w.hand b g) s) :
    Q ⟨b, [], none, g⟩ (s.lost b w) := by
  cases w with
  | record t => exact hP.reportLoss hg h
  | probe k => exact hP.giveUpProbe hg h

/-- The result of a stop is reported (R51). -/
theorem reportStop {w : Work} {r : StopResult} (hg : (s.bus b).engine = .idle none → g = true)
    (h : Q ⟨b, (Engine.driving (.stop r) w).record?.toList, none, g⟩ s) :
    Q ⟨b, [], none, g⟩ (s.reportStop b r w) := by
  unfold State.reportStop
  split
  · exact hP.conclude _ rfl (hP.quiet (quiet_setBus_same rfl rfl rfl rfl rfl) h)
  · exact hP.conclude _ rfl h
  · exact hP.reportRefusal hg h
  · exact hP.free h
  · exact h

theorem concludeStalled {kept : Option Txn} (o : TxnOutcome) (h : Q ⟨b, kept.toList, none, g⟩ s) :
    Q ⟨b, [], none, g⟩ (s.concludeStalled kept o) := by
  cases kept with
  | none => exact h
  | some t => exact hP.conclude o rfl h

/-- Records of a hand are freed. -/
theorem freeAll {ts : List Txn} {p : Option Handle} (h : Q ⟨b, ts, p, g⟩ s) : Q ⟨b, [], p, g⟩ s := by
  induction ts with
  | nil => exact h
  | cons t ts ih => exact ih (hP.free h)

/-- The HOST records of a hand are decided, the others are freed (R22, R24). -/
theorem decideHosts {ts : List Txn} {p : Option Handle} (o : TxnOutcome) {s : State} (h : Q ⟨b, ts, p, g⟩ s) :
    Q ⟨b, [], p, g⟩ ((ts.filter Txn.isHost).foldl (fun u t => u.decideAside o t) s) := by
  induction ts generalizing s with
  | nil => exact h
  | cons t ts ih =>
    by_cases hh : t.isHost = true
    · rw [List.filter_cons_of_pos hh]
      exact ih (hP.decideAside o rfl hh h)
    · rw [List.filter_cons_of_neg hh]
      exact ih (hP.free h)

end Returns

/-- A queued record of a ticket leaves its queue and is decided. -/
theorem dropTicket {s : State} {b : BusId} {t : Txn} {k : Nat} (o : TxnOutcome)
    (hf : (s.bus b).queue.find? (fun u => u.hasTicket k) = some t) (hs : P s) :
    P ((s.setBus b ((s.bus b).dropQueued fun u => u.hasTicket k)).decideAside o t) := by
  have hk : t.hasTicket k = true := List.find?_some (p := fun u : Txn => u.hasTicket k) hf
  have h := hP.takeOut (b := b) (fun u => u.hasTicket k) hs
  cases hl : (s.bus b).queue.filter fun u => u.hasTicket k with
  | nil =>
    have hn : t ∈ (s.bus b).queue.filter fun u => u.hasTicket k :=
      List.mem_filter.mpr ⟨List.mem_of_find?_eq_some hf, hk⟩
    rw [hl] at hn
    cases hn
  | cons u ts =>
    have hu : u = t := by
      rw [← List.head?_filter, hl] at hf
      exact Option.some.inj hf
    rw [hl, hu] at h
    rw [decideAside_ticket hk]
    exact (hP.empty b _).mp (hP.freeAll (hP.conclude o (t := t) rfl h))

/-! ### The directory's results -/

theorem claimQuarantine {s : State} (b : BusId) (h : Handle) (hs : P s) : P (s.claimQuarantine b h) := by
  have hq := hP.decideHosts .targetOut (hP.takeOut (b := b) (fun t => t.handle == h) hs)
  have hhosts : (s.bus b).queue.filter (fun t => t.handle == h && t.isHost) =
      (s.bus b).queue.filter fun t => t.isHost && t.handle == h := List.filter_congr fun t _ => Bool.and_comm _ _
  rw [List.filter_filter, ← hhosts] at hq
  exact (hP.empty b _).mp hq

end RecordLaw

/-- The pool's part of a quarantine and the directory's come to the same in either order. -/
theorem quarantine_claims_first (s : State) (h : Handle) (e : Entry) (n : Nat) :
    s.quarantine h e n = ((s.claimQuarantine e.bus h).setEntry h (some (e.out n))).pausePolls h := by
  have hstore := concludeEach_store_congr (s := s.setEntry h (some (e.out n))) (u := s) rfl rfl (s.claimed e.bus h) .targetOut
  rw [quarantine_eq, claimQuarantine_eq, claimQuarantine_eq]
  have hclaimed : (s.setEntry h (some (e.out n))).claimed e.bus h = s.claimed e.bus h := rfl
  rw [hclaimed, hstore.1, hstore.2]
  rfl

theorem bus_claimQuarantine (s : State) (b : BusId) (h : Handle) (c : BusId) :
    (s.claimQuarantine b h).bus c = (s.setBus b (keeping (s.bus b) fun r => decide (r.handle ≠ h))).bus c := by
  rw [claimQuarantine_eq]
  rfl

theorem entry_claimQuarantine (s : State) (b : BusId) (h k : Handle) : (s.claimQuarantine b h).entry k = s.entry k := by
  rw [claimQuarantine_eq]
  rfl

theorem engine_addressRefused (s : State) (h : Handle) (b : BusId) :
    ((s.addressRefused h).bus b).engine = (s.bus b).engine := by
  have hq (e : Entry) (n : Nat) : ((s.quarantine h e n).bus b).engine = (s.bus b).engine := by
    rw [bus_quarantine]
    split <;> rfl
  unfold State.addressRefused
  split
  · rfl
  · dsimp only
    split
    · rfl
    all_goals
      split
      · rfl
      · exact hq _ _

theorem buses_probeResult (s : State) (b : BusId) (h : Handle) (ack : AckBit) :
    (s.probeResult b h ack).buses = s.buses := by
  unfold State.probeResult
  split
  · rfl
  · split
    · cases ack <;> rfl
    · rfl

namespace RecordLaw
variable {P : State → Prop} {Q : Hand → State → Prop} (hP : RecordLaw P Q)
include hP

theorem quarantine {s : State} {h : Handle} {e : Entry} (n : Nat) (he : s.entry h = some e) (hq : e.state ≠ .quarantined)
    (hs : P s) : P (s.quarantine h e n) := by
  rw [quarantine_claims_first]
  refine hP.markOut n ?_ hq ?_ (hP.claimQuarantine e.bus h hs)
  · rw [entry_claimQuarantine, he]
  · intro t ht
    rw [bus_claimQuarantine, State.bus_setBus_same, keeping, Bus.queue, ← List.filter_append] at ht
    simpa using (List.mem_filter.mp ht).2

theorem addressRefused {s : State} (h : Handle) (hs : P s) : P (s.addressRefused h) := by
  cases he : s.entry h with
  | none =>
    rw [State.addressRefused, he]
    exact hs
  | some e =>
    by_cases hq : e.state = .quarantined
    · rw [addressRefused_quarantined he hq]
      exact hs
    · by_cases hn : rise 255 e.refusals < e.threshold
      · rw [addressRefused_suspect he hq hn]
        exact hP.moved (quiet_setEntry he (by simp [Entry.core_eq, hq])) hs
      · rw [addressRefused_quarantines he hq (Nat.not_lt.mp hn)]
        exact hP.quarantine _ he hq hs

/-- A probe's result: afterwards its entry waits on no probe of this bus (R99, R100). -/
theorem probeResult {s : State} (b : BusId) (h : Handle) (ack : AckBit) (hs : P s) :
    P (s.probeResult b h ack) ∧ ∀ e, (s.probeResult b h ack).entry h = some e → ¬ (e.probe = .issued ∧ e.bus = b) := by
  by_cases hi : ∃ e, s.entry h = some e ∧ e.probe = .issued ∧ e.bus = b
  · obtain ⟨e, he, hp, hb⟩ := hi
    cases ack with
    | acknowledged =>
      rw [probeResult_acknowledged he hp hb]
      refine ⟨hP.release he hs, fun f hf => ?_⟩
      rw [entry_release, if_pos rfl] at hf
      rw [← Option.some.inj hf]
      simp [Entry.back]
    | refused =>
      rw [probeResult_refused he hp hb]
      refine ⟨hP.unissued _ he hp hs, fun f hf => ?_⟩
      rw [State.entry_setEntry, if_pos rfl] at hf
      rw [← Option.some.inj hf]
      simp
  · have hn : ∀ e, s.entry h = some e → e.probe ≠ .issued ∨ e.bus ≠ b := fun e he => by
      by_contra hc
      exact hi ⟨e, he, by simpa [not_or] using hc⟩
    rw [probeResult_unawaited hn]
    exact ⟨hs, fun e he hc => (hn e he).elim (fun h => h hc.1) fun h => h hc.2⟩

end RecordLaw

end Sys2Proof.Machine
end

section
/-! SUPPORT. A law of the records through every happening and deed: it is a law of the device. -/

namespace Sys2Proof.Machine

/-! ### Engines that give their work away -/

theorem Bus.Left.of_rest {y : Bus} {e : Engine} (hr : e.record? = none) (ha : e.awaited = none) (m : Monitor) :
    y.Left (atRest y e m) := ⟨rfl, rfl, rfl, hr, ha⟩

theorem hand_idle (b : BusId) (w : Work) : (Engine.idle (some w)).record?.toList = (w.hand b false).records ∧
    (Engine.idle (some w)).awaited = (w.hand b false).probe := by
  cases w <;> exact ⟨rfl, rfl⟩

theorem hand_driving (b : BusId) {p : DrivePhase} (hp : ∀ r, p ≠ .stop r) (w : Work) :
    (Engine.driving p w).record?.toList = (w.hand b false).records ∧
    (Engine.driving p w).awaited = (w.hand b false).probe := by
  cases w with
  | record t => exact ⟨rfl, Engine.awaited_driving_record p t⟩
  | probe h => exact ⟨rfl, Engine.awaited_driving_probe hp h⟩

theorem awaited_stop (r : StopResult) (w : Work) : (Engine.driving (.stop r) w).awaited = none := by
  cases w <;> rfl

theorem idle_of_rest {s : State} {b : BusId} {x : Bus} :
    ((s.setBus b x).bus b).engine = .idle none → decide (x.engine = .idle none) = true := by
  rw [State.bus_setBus_same]
  exact fun h => decide_eq_true h

theorem record_pass (s : State) (us : Nat) (b : BusId) : ((s.pass us).bus b).engine.record? = (s.bus b).engine.record? := by
  rw [bus_pass]
  exact (busPass_work _ _ _ _).1

theorem awaited_pass (s : State) (us : Nat) (b : BusId) : ((s.pass us).bus b).engine.awaited = (s.bus b).engine.awaited := by
  rw [bus_pass]
  exact (busPass_work _ _ _ _).2.1

theorem queue_pass (s : State) (us : Nat) (b : BusId) : ((s.pass us).bus b).queue = (s.bus b).queue := by
  rw [Bus.queue, Bus.queue, (quiet_pass s us).urgent, (quiet_pass s us).routine]

theorem not_stop_of_exposed {p : DrivePhase} (h : p.exposed = true) (r : StopResult) : p ≠ .stop r :=
  (p.exposed_iff.mp h).1 r

namespace RecordLaw
variable {P : State → Prop} {Q : Hand → State → Prop} (hP : RecordLaw P Q) {s : State} {b : BusId}
include hP

/-! ### Lost arbitration -/

/-- The engine goes OCCUPIED with the loss counted, and its work is reported lost (R57). -/
theorem loses {p : DrivePhase} {w : Work} (hs : P s) (he : (s.bus b).engine = .driving p w) (hp : ∀ r, p ≠ .stop r)
    (hearing : Option (List Bool)) (m : Monitor) : P ((s.setBus b (lossCounted (s.bus b) hearing m)).lost b w) := by
  have hx : (s.bus b).Left (lossCounted (s.bus b) hearing m) := ⟨rfl, rfl, rfl, rfl, rfl⟩
  have hw := hP.left hx (by rw [he]; exact hand_driving b hp w) hs
  exact (hP.empty b _).mp (hP.lost idle_of_rest hw)

theorem loseToLow {p : DrivePhase} {w : Work} (hs : P s) (he : (s.bus b).engine = .driving p w) (hp : ∀ r, p ≠ .stop r)
    (hearing : Option (List Bool)) : P (s.loseToLow b w hearing) := by
  rw [loseToLow_eq]
  exact hP.loses hs he hp _ _

theorem loseToStart {p : DrivePhase} {w : Work} (hs : P s) (he : (s.bus b).engine = .driving p w)
    (hp : ∀ r, p ≠ .stop r) : P (s.loseToStart b w) := by
  rw [loseToStart_eq]
  exact hP.loses hs he hp _ _

/-- The engine goes IDLE and selects, holding nothing. -/
theorem idleAgain {e : Engine} (he : (s.bus b).engine = e) (hr : e.record? = none) (ha : e.awaited = none) (hs : P s) :
    P (s.idleAgain b) :=
  hP.idles (.of_rest rfl rfl _) (by rw [he, hr]) (by rw [he, ha]) hs

theorem loseToStop {p : DrivePhase} {w : Work} (hs : P s) (he : (s.bus b).engine = .driving p w)
    (hp : ∀ r, p ≠ .stop r) : P (s.loseToStop b w) := by
  rw [loseToStop_eq]
  have hl := hP.loses hs he hp none (lineStopped (s.bus b).monitor)
  have hv := ((alike_lost (s.setBus b (lossCounted (s.bus b) none (lineStopped (s.bus b).monitor))) b w).bus b).value
  rw [State.bus_setBus_same] at hv
  obtain ⟨hearing, ho⟩ := (Engine.value_occupied_iff _).mp hv
  exact hP.idleAgain ho rfl rfl hl

/-! ### Conditions and edges -/

/-- A reception ends: its inbound record is no matter of the records. -/
theorem received {s : State} (l : List Inbound) (hs : P s) : P { s with inbound := l } :=
  hP.moved (s := s) (.of_kept rfl rfl rfl rfl rfl rfl rfl) hs

theorem conditionInClearing {f : Monitor → Monitor} (hs : P s) : P (s.conditionInClearing b f) :=
  hP.moved (quiet_setBus_same rfl rfl rfl rfl rfl) hs

/-- A start not made: the engine goes OCCUPIED, and its work is given back (R44). -/
theorem unmakes {w : Work} (he : (s.bus b).engine = .idle (some w)) (hearing : Option (List Bool)) (m : Monitor) (hs : P s) :
    P ((s.setBus b (atRest (s.bus b) (.occupied hearing) m)).unmade b w) := by
  have hx : (s.bus b).Left (atRest (s.bus b) (.occupied hearing) m) := .of_rest rfl rfl m
  have hw := hP.left hx (by rw [he]; exact hand_idle b w) hs
  exact (hP.empty b _).mp (hP.unmade idle_of_rest hw)

theorem seeStart (hs : P s) : P (s.seeStart b) := by
  cases he : (s.bus b).engine with
  | off =>
    rw [seeStart_still (.inl he)]
    exact hP.moved (quiet_mapMonitor s b _) hs
  | faulted =>
    rw [seeStart_still (.inr he)]
    exact hP.moved (quiet_mapMonitor s b _) hs
  | idle w =>
    cases w with
    | none =>
      rw [seeStart_hears (.inl he)]
      exact hP.changed (.of_rest rfl rfl _) (by rw [he]; rfl) (by rw [he]; rfl) (fun h => by cases h) hs
    | some w =>
      rw [seeStart_idle he]
      exact hP.unmakes he _ _ hs
  | occupied hearing =>
    rw [seeStart_hears (.inr ⟨hearing, he⟩)]
    exact hP.changed (.of_rest rfl rfl _) (by rw [he]; rfl) (by rw [he]; rfl) (fun h => by cases h) hs
  | driving p w =>
    rw [seeStart_driving he]
    split
    · rename_i hx
      exact hP.loseToStart hs he (not_stop_of_exposed hx)
    · exact hs
  | answering r =>
    rw [seeStart_answering he]
    refine hP.received _ (hP.changed (.of_rest rfl rfl _) ?_ ?_ (fun h => by cases h) hs)
    · rw [he]; rfl
    · rw [he]; rfl
  | clearing kept n stage =>
    rw [seeStart_clearing he]
    split
    · exact hs
    · exact hP.conditionInClearing hs

theorem enterIdle {e : Engine} (he : (s.bus b).engine = e) (hr : e.record? = none) (ha : e.awaited = none) (hs : P s) :
    P (s.enterIdle b) := hP.idleAgain he hr ha hs

theorem mapMonitor_enterIdle {e : Engine} (f : Monitor → Monitor) (he : (s.bus b).engine = e) (hr : e.record? = none)
    (ha : e.awaited = none) (hs : P s) : P ((s.mapMonitor b f).enterIdle b) :=
  hP.enterIdle ((congrArg Bus.engine (State.bus_setBus_same s b _)).trans he) hr ha (hP.moved (quiet_mapMonitor s b f) hs)

theorem endReception_enterIdle {r : Reception} (f : Monitor → Monitor) (he : (s.bus b).engine = .answering r)
    (ended : EndedBy) (hs : P s) : P (((s.mapMonitor b f).endReception b r ended).enterIdle b) :=
  hP.enterIdle ((congrArg Bus.engine (State.bus_setBus_same s b _)).trans he) rfl rfl
    (hP.received _ (hP.moved (quiet_mapMonitor s b f) hs))

theorem seeStop (hs : P s) : P (s.seeStop b) := by
  cases he : (s.bus b).engine with
  | off =>
    rw [seeStop_still (.inl he)]
    exact hP.moved (quiet_mapMonitor s b _) hs
  | faulted =>
    rw [seeStop_still (.inr (.inr he))]
    exact hP.moved (quiet_mapMonitor s b _) hs
  | idle w =>
    rw [seeStop_still (.inr (.inl (by rw [he]; rfl)))]
    exact hP.moved (quiet_mapMonitor s b _) hs
  | occupied hearing =>
    rw [seeStop_occupied he]
    exact hP.mapMonitor_enterIdle _ he rfl rfl hs
  | driving p w =>
    rw [seeStop_driving he]
    split
    · rename_i hx
      exact hP.loseToStop hs he (not_stop_of_exposed hx)
    · exact hs
  | answering r =>
    rw [seeStop_answering he]
    exact hP.endReception_enterIdle _ he _ hs
  | clearing kept n stage =>
    rw [seeStop_clearing he]
    split
    · exact hs
    · exact hP.conditionInClearing hs

theorem raiseBusFree (hs : P s) : P (s.raiseBusFree b) := by
  cases he : (s.bus b).engine with
  | off =>
    rw [raiseBusFree_still (.inl he)]
    exact hP.moved (quiet_mapMonitor s b _) hs
  | idle w =>
    rw [raiseBusFree_still (.inr (.inl (by rw [he]; rfl)))]
    exact hP.moved (quiet_mapMonitor s b _) hs
  | clearing kept n stage =>
    rw [raiseBusFree_still (.inr (.inr (by rw [he]; rfl)))]
    exact hP.moved (quiet_mapMonitor s b _) hs
  | occupied hearing =>
    rw [raiseBusFree_occupied (by rw [he]; rfl)]
    exact hP.mapMonitor_enterIdle _ he rfl rfl hs
  | driving p w =>
    rw [State.raiseBusFree, he]
    exact hs
  | answering r =>
    rw [raiseBusFree_answering he]
    exact hP.endReception_enterIdle _ he _ hs
  | faulted =>
    rw [raiseBusFree_faulted he]
    refine hP.idleAgain (e := .faulted) ?_ rfl rfl (hP.moved (quiet_setBus_same rfl rfl rfl rfl rfl) hs)
    rw [State.bus_setBus_same, he]

theorem sense (hs : P s) (change : SensedChange) : P (s.sense b change) := by
  unfold State.sense
  cases hl : (s.bus b).monitor.line with
  | held =>
    cases change with
    | dataFell => exact hP.seeStart hs
    | clockFell data => exact hP.moved (quiet_clockFall s b) hs
    | clockHigh data => exact hP.moved (quiet_clockRise s b data) hs
  | free =>
    cases change with
    | dataFell => exact hP.seeStart hs
    | clockFell data => exact hP.seeStart hs
    | clockHigh data =>
      cases data with
      | false => exact hs
      | true =>
        dsimp only
        split
        · exact hP.moved (quiet_clockRise s b true) hs
        · exact hs

theorem stopTold (hs : P s) : P (s.stopTold b) := by
  unfold State.stopTold
  split
  · exact hs
  · exact hP.seeStop hs

theorem freeTold (hs : P s) : P (s.freeTold b) := by
  unfold State.freeTold
  split
  · exact hs
  · exact hP.raiseBusFree (hP.pass _ hs)

/-! ### Clearings -/

theorem stuckTold (hs : P s) : P (s.stuckTold b) := by
  unfold State.stuckTold
  split
  · have hp := hP.pass (((s.bus b).monitor.stuckLimit - (s.bus b).monitor.stuckTimer) * 1000) hs
    generalize s.pass (((s.bus b).monitor.stuckLimit - (s.bus b).monitor.stuckTimer) * 1000) = u at hp ⊢
    cases he : (u.bus b).engine with
    | occupied hearing =>
      rw [raiseStuck_occupied he]
      exact hP.changed ⟨rfl, rfl, rfl, rfl, rfl⟩ (by rw [he]; rfl) (by rw [he]; rfl) (fun h => by cases h) hp
    | answering r =>
      rw [raiseStuck_answering he]
      refine hP.received _ (hP.changed ⟨rfl, rfl, rfl, rfl, rfl⟩ ?_ ?_ (fun h => by cases h) hp)
      · rw [he]; rfl
      · rw [he]; rfl
    | _ => rw [State.raiseStuck, he]; exact hp
  · exact hs

/-- A stall's clearing begins, the work given out of the engine's hands (R63, R64). -/
theorem stalling {e : Engine} (he : (s.bus b).engine = e) (hs : P s) :
    Q ⟨b, e.record?.toList, e.awaited, false⟩ (s.stalling b none) := by
  have hp : P (s.stretchOut b) := hP.pass _ hs
  have h := hP.leave (b := b) (x := clearingBegun { (s.stretchOut b).bus b with
    stalls := rise 65535 (s.bus b).stalls, monitor := clockFell ((s.stretchOut b).bus b).monitor } none)
    ⟨rfl, rfl, rfl, rfl, rfl⟩ hp
  have hr : ((s.stretchOut b).bus b).engine.record? = e.record? := (record_pass s _ b).trans (by rw [he])
  have ha : ((s.stretchOut b).bus b).engine.awaited = e.awaited := (awaited_pass s _ b).trans (by rw [he])
  rw [hr, ha] at h
  exact h

theorem stallBus (hs : P s) : P (s.stallBus b) := by
  by_cases h3 : (s.bus b).engine.value = 0x03#8
  · obtain ⟨p, w, he⟩ := (Engine.value_driving_iff _).mp h3
    have hbusy (kept : Option Txn) : ((s.stalling b kept).bus b).engine = .idle none → false = true := fun h => by
      rw [State.stalling, State.bus_setBus_same] at h
      cases h
    have hout := hP.stalling he hs
    by_cases hp : ∃ r, p = .stop r
    · obtain ⟨r, rfl⟩ := hp
      rw [stallBus_driving he]
      rw [awaited_stop] at hout
      exact (hP.empty b _).mp (hP.reportStop (hbusy none) hout)
    · rw [not_exists] at hp
      cases w with
      | record t =>
        rw [stallBus_record he hp]
        refine hP.moved (quiet_setBus_else ⟨rfl, rfl, rfl, ?_, ?_, fun h => by cases h⟩ fun u h => by cases h)
          (hP.pass _ hs)
        · rw [State.stretchOut, record_pass, he]
          rfl
        · rw [State.stretchOut, awaited_pass, he, Engine.awaited_driving_record]
          rfl
      | probe h =>
        rw [stallBus_probe he hp]
        rw [Engine.awaited_driving_probe hp] at hout
        exact (hP.empty b _).mp (hP.giveUpProbe (hbusy none) hout)
  · rw [stallBus_out h3]
    exact hs

theorem endClearing (hs : P s) : P (s.endClearing b) := by
  by_cases h5 : (s.bus b).engine.value = 0x05#8
  · obtain ⟨kept, n, stage, he⟩ := (Engine.value_clearing_iff _).mp h5
    rw [endClearing_clearing he]
    split
    · have h := hP.leave (b := b) (x := { atRest (s.bus b) (.idle none) (lineStopped (s.bus b).monitor) with
        pendingCleared := rise 255 (s.bus b).pendingCleared }) ⟨rfl, rfl, rfl, rfl, rfl⟩ hs
      rw [he] at h
      exact hP.select (hP.concludeStalled _ (kept := kept) (by cases kept <;> exact h))
    · exact hs
  · rw [endClearing_out h5]
    exact hs

theorem failClearing (hs : P s) : P (s.failClearing b) := by
  by_cases h5 : (s.bus b).engine.value = 0x05#8
  · obtain ⟨kept, n, stage, he⟩ := (Engine.value_clearing_iff _).mp h5
    rw [failClearing_clearing he]
    have hfailed {u : State} (hu : P u) (hr : (u.bus b).engine.record? = kept) (ha : (u.bus b).engine.awaited = none) :
        P ((u.failed b).concludeStalled kept .busFault) := by
      have h := hP.leave (b := b) (x := { atRest (u.bus b) .faulted (lineStarted (u.bus b).monitor) with
        faults := rise 65535 (u.bus b).faults, pendingFaulted := rise 255 (u.bus b).pendingFaulted })
        ⟨rfl, rfl, rfl, rfl, rfl⟩ hu
      rw [hr, ha] at h
      exact (hP.empty b _).mp (hP.concludeStalled _ h)
    have hr : (s.bus b).engine.record? = kept := by
      rw [he]
      cases kept <;> rfl
    have ha : (s.bus b).engine.awaited = none := by
      rw [he]
      rfl
    split
    · exact hfailed hs hr ha
    · exact hfailed (hP.pass _ hs) ((record_pass s _ b).trans hr) ((awaited_pass s _ b).trans ha)
  · rw [failClearing_out h5]
    exact hs

/-! ### Drives -/

theorem makeStart (hs : P s) : P (s.makeStart b) := by
  by_cases h : ∃ w, (s.bus b).engine = .idle (some w)
  · obtain ⟨w, he⟩ := h
    cases hl : (s.bus b).monitor.line with
    | free =>
      rw [makeStart_free he hl]
      refine hP.moved (quiet_setBus_else ⟨rfl, rfl, rfl, ?_, ?_, fun h => by cases h⟩ fun t h => by cases h) hs
      · rw [he]
        cases w <;> rfl
      · rw [he]
        cases w <;> rfl
    | held =>
      rw [makeStart_held he hl]
      exact hP.unmakes he _ _ hs
  · rw [makeStart_out h]
    exact hs

theorem drives {p q : DrivePhase} {t u : Txn} (he : (s.bus b).engine = .driving p (.record t)) (hc : u.core = t.core)
    (hs : P s) : P (s.drive b q (.record u)) := hP.moved (quiet_drive_record he hc) hs

theorem addressAnswered (hs : P s) (ack : AckBit) : P (s.addressAnswered b ack) := by
  unfold State.addressAnswered
  split
  · exact hs
  · rename_i p t he
    have he := (Engine.drivingRecord?_eq_some_iff _ p t).mp he
    have hc : t.countAttempt.core = t.core := by
      obtain ⟨n, h⟩ := countAttempt_frame t
      rw [h]
      rfl
    split
    · split
      · cases ack
        · have hb : ((s.addressAcknowledged t.countAttempt.handle).bus b) = s.bus b := by
            obtain ⟨d, h⟩ := addressAcknowledged_frame s t.countAttempt.handle
            rw [h]
            rfl
          exact hP.drives (by rw [hb, he]) hc (hP.moved (quiet_addressAcknowledged s _) hs)
        · exact hP.drives ((engine_addressRefused s _ b).trans he) hc (hP.addressRefused _ hs)
      · cases ack
        · exact hP.drives he rfl hs
        · exact hP.drives he rfl hs
    · exact hs

theorem probeAnswered (hs : P s) (ack : AckBit) : P (s.probeAnswered b ack) := by
  by_cases hp : ∃ h, (s.bus b).engine = .driving .start (.probe h) ∨ (s.bus b).engine = .driving .address (.probe h)
  · obtain ⟨h, hp⟩ := hp
    obtain ⟨p, he, hp⟩ : ∃ p, (s.bus b).engine = .driving p (.probe h) ∧ (p = .start ∨ p = .address) := by
      rcases hp with he | he
      · exact ⟨_, he, .inl rfl⟩
      · exact ⟨_, he, .inr rfl⟩
    rw [probeAnswered_in he hp]
    obtain ⟨hres, hended⟩ := hP.probeResult b h ack hs
    have hb : ((s.probeResult b h ack).bus b) = s.bus b := by
      rw [State.bus, State.bus, buses_probeResult]
    have hout := hP.leave (b := b) (x := { (s.probeResult b h ack).bus b with
        engine := .driving (.stop .probeDone) (.probe h), clockOut := (DrivePhase.stop .probeDone).clockDrive
        dataOut := (DrivePhase.stop .probeDone).dataDrive, sending := none, bitsPlaced := 0, stretchTimer := 0
        monitor := ((s.probeResult b h ack).bus b).monitor.fallen }) ⟨rfl, rfl, rfl, rfl, rfl⟩ hres
    have hne : ∀ r, p ≠ .stop r := by
      rcases hp with rfl | rfl
      all_goals exact fun r h => by cases h
    have hr : ((s.probeResult b h ack).bus b).engine.record? = none := by rw [hb, he]; rfl
    have ha : ((s.probeResult b h ack).bus b).engine.awaited = some h := by
      rw [hb, he, Engine.awaited_driving_probe hne]
    rw [hr, ha] at hout
    exact (hP.empty b _).mp (hP.endProbe (ts := []) hended hout)
  · rw [probeAnswered_out hp]
    exact hs

theorem writeAnswered (hs : P s) (ack : AckBit) : P (s.writeAnswered b ack) := by
  have hc (t : Txn) (n : Nat) : (afterWriteByte t n ack).1.core = t.core := by
    unfold afterWriteByte
    cases ack
    · dsimp only
      split <;> rfl
    · rfl
  unfold State.writeAnswered
  split
  · exact hs
  · rename_i p t he
    have he := (Engine.drivingRecord?_eq_some_iff _ p t).mp he
    split
    · split
      · exact hP.drives he (hc t _) hs
      · exact hs
      · exact hs
    · exact hs

theorem readTaken (hs : P s) (part : ReadPart) : P (s.readTaken b part) := by
  have hc (t : Txn) (n : Nat) (ack : AckBit) : (afterReadByte t n ack).1.core = t.core := by
    unfold afterReadByte
    cases ack
    · rfl
    · dsimp only
      split <;> rfl
  unfold State.readTaken
  split
  · exact hs
  · rename_i p t he
    have he := (Engine.drivingRecord?_eq_some_iff _ p t).mp he
    split
    · split
      · exact hP.drives he (by rfl) hs
      · exact hP.drives he (hc t _ _) hs
      · exact hs
    · exact hs
    · exact hs

theorem makeRepeatedStart (hs : P s) : P (s.makeRepeatedStart b) := by
  by_cases h : ∃ t, (s.bus b).engine = .driving .restart (.record t)
  · obtain ⟨t, he⟩ := h
    rw [makeRepeatedStart_restart he]
    refine hP.moved (quiet_setBus ⟨rfl, rfl, rfl, ?_, ?_, fun h => by cases h⟩ fun u hu => .inr ?_) hs
    · rw [he]
      rfl
    · rw [he]
      rfl
    · obtain ⟨-, hu⟩ := Engine.driving.inj hu
      rw [← hu]
      rfl
  · rw [makeRepeatedStart_out h]
    exact hs

theorem releaseStop (hs : P s) (rose : Bool) : P (s.releaseStop b rose) := by
  by_cases h : ∃ r w, (s.bus b).engine = .driving (.stop r) w
  · obtain ⟨r, w, he⟩ := h
    have hout (e : Engine) (m : Monitor) (hr : e.record? = none) (ha : e.awaited = none) :=
      hP.leave (b := b) (x := atRest (s.bus b) e m) (.of_rest hr ha m) hs
    rw [he, awaited_stop] at hout
    cases rose with
    | true =>
      rw [releaseStop_rose he]
      exact hP.select (hP.reportStop idle_of_rest (hout (.idle none) (lineStopped (s.bus b).monitor) rfl rfl))
    | false =>
      rw [releaseStop_held he]
      exact (hP.empty b _).mp (hP.reportStop idle_of_rest (hout (.occupied none) (clockFell (s.bus b).monitor) rfl rfl))
  · rw [releaseStop_out h]
    exact hs

theorem arbitrationLoss (hs : P s) (cause : LossCause) : P (s.arbitrationLoss b cause) := by
  by_cases h3 : (s.bus b).engine.value = 0x03#8
  · obtain ⟨p, w, he⟩ := (Engine.value_driving_iff _).mp h3
    obtain ⟨hnone, hzero, hone, hrestart, hrefused, hstart, hstop⟩ := arbitrationLoss_driving he
    cases cause with
    | bitLow place =>
      cases hv : s.byteAtLoss b with
      | none =>
        rw [hnone place hv]
        exact hs
      | some v =>
        cases hbit : v.getLsbD (7 - place.val) with
        | false =>
          rw [hzero place v hv hbit]
          exact hs
        | true =>
          rw [hone place v hv hbit]
          split
          · rename_i ha
            refine hP.loseToLow hs he (fun r hr => ?_) _
            rw [hr] at ha
            cases ha
          · split
            · rename_i hp
              exact hP.loseToLow hs he (by rw [hp]; exact fun r h => by cases h) _
            · exact hs
    | restartLow =>
      rw [hrestart]
      split
      · rename_i hp
        exact hP.loseToLow hs he (by rw [hp]; exact fun r h => by cases h) _
      · exact hs
    | notAcknowledge =>
      rw [hrefused]
      split
      · rename_i hp
        exact hP.loseToLow hs he (by rw [hp]; exact fun r h => by cases h) _
      · exact hs
    | startSeen =>
      rw [hstart]
      split
      · rename_i hx
        exact hP.loseToStart hs he (not_stop_of_exposed hx)
      · exact hs
    | stopSeen =>
      rw [hstop]
      split
      · rename_i hx
        exact hP.loseToStop hs he (not_stop_of_exposed hx)
      · exact hs
  · rw [arbitrationLoss_out h3]
    exact hs

/-! ### Receptions -/

theorem addressHeard (hs : P s) (value : Byte) : P (s.addressHeard b value) := by
  by_cases h : ∃ known, (s.bus b).engine = .occupied (some known)
  · obtain ⟨known, he⟩ := h
    by_cases hp : known.isPrefixOf (bitsOf value) = true
    · cases ha : s.admitted b value with
      | none =>
        rw [addressHeard_passed he hp ha]
        exact hP.changed (.of_rest rfl rfl _) (by rw [he]; rfl) (by rw [he]; rfl) (fun h => by cases h) hs
      | some r =>
        rw [addressHeard_admitted he hp ha, mapMonitor_answer]
        exact hP.changed ⟨rfl, rfl, rfl, rfl, rfl⟩ (by rw [he]; rfl) (by rw [he]; rfl) (fun h => by cases h) hs
    · rw [addressHeard_other he hp]
      exact hs
  · rw [addressHeard_out h]
    exact hs

theorem writeIn (hs : P s) (value : Byte) : P (s.writeIn b value) := by
  by_cases h : ∃ r, (s.bus b).engine = .answering r ∧ r.kind = .write
  · obtain ⟨r, he, hk⟩ := h
    rw [writeIn_write he hk]
    exact hP.changed ⟨rfl, rfl, rfl, rfl, rfl⟩ (by rw [he]; rfl) (by rw [he]; rfl) (fun h => by cases h) hs
  · rw [writeIn_out h]
    exact hs

theorem readOut (hs : P s) (ack : AckBit) : P (s.readOut b ack) := by
  by_cases h : ∃ r, (s.bus b).engine = .answering r ∧ r.kind = .read
  · obtain ⟨r, he, hk⟩ := h
    cases hc : r.closed with
    | true =>
      rw [readOut_closed he hk hc]
      exact hs
    | false =>
      rw [readOut_open he hk hc]
      obtain ⟨n, d, hx⟩ := placeBit_frame { s.bus b with
        engine := .answering (r.giveByte ack), dataOut := .released, sending := (r.giveByte ack).byteGiven, bitsPlaced := 0
        monitor := clockFell (s.bus b).monitor }
      refine hP.changed (x := Bus.placeBit _) (hx ▸ ⟨rfl, rfl, rfl, rfl, rfl⟩) (by rw [he]; rfl) (by rw [he]; rfl) ?_ hs
      rw [engine_placeBit]
      exact fun h => by cases h
  · rw [readOut_out h]
    exact hs

/-! ### Timers of records, probes and polls -/

theorem expireTicket (hs : P s) (k : Nat) : P (s.expireTicket k) := by
  unfold State.expireTicket
  split
  · rename_i c t hf
    split
    · exact hs
    · refine hP.dropTicket _ ?_ (hP.pass _ hs)
      rw [State.passTo, queue_pass]
      exact findTicket_queued hf
  · split
    · exact hs
    · exact hP.pass _ hs
  all_goals exact hs

theorem endGap (hs : P s) (n : RecordName) : P (s.endGap n) := by
  unfold State.endGap
  split
  · exact hs
  · split
    · exact hs
    · exact hP.select (hP.requeue _ (hP.pass _ hs))

theorem probeTimerOut (hs : P s) (h : Handle) : P (s.probeTimerOut h) := by
  unfold State.probeTimerOut
  split
  · exact hs
  · rename_i e he
    split
    · rename_i r hp
      have he' : (s.pass (r * 1000)).entry h = some { e with probe := .timing (r - s.msIn (r * 1000)) } := by
        rw [entry_pass, he]
        exact congrArg some (by rw [Entry.pass, hp])
      exact hP.select (hP.probeDue (e := { e with probe := .timing (r - s.msIn (r * 1000)) }) he' rfl (hP.pass _ hs))
    all_goals exact hs

theorem periodOut (hs : P s) (i : PollIndex) : P (s.periodOut i) := by
  cases hp : s.poll i with
  | none =>
    rw [State.periodOut, hp]
    exact hs
  | some p =>
    cases hr : p.state with
    | paused =>
      rw [periodOut_other fun q r hq => ?_]
      · exact hs
      · rw [← Option.some.inj (hp.symm.trans hq), hr]
        exact fun h => by cases h
    | active r =>
      have hpass : P (s.pass (r * 1000)) := hP.pass _ hs
      have hpoll : (s.pass (r * 1000)).poll i = some (p.pass (s.msIn (r * 1000))) := by
        rw [poll_pass, hp]
        rfl
      have set (q : Poll) (hq : q.core = p.core) : P ((s.pass (r * 1000)).setPoll i (some q)) :=
        hP.moved (quiet_setPoll hpoll (hq.trans (core_pollPass p _).symm)) hpass
      have hcore (q : Poll) (hh : q.handle = p.handle) (hq : q.state = .active p.period) : q.core = p.core := by
        rw [Poll.core_eq, hh, hq, hr]
        simp
      cases he : s.entry p.handle with
      | none =>
        unfold State.periodOut
        rw [hp]
        dsimp only
        rw [hr]
        dsimp only
        rw [entry_pass, he]
        exact set _ (hcore _ rfl rfl)
      | some e =>
        rw [periodOut_active hp hr he]
        split
        · rename_i hq
          rw [← queuesInstance_pass s (r * 1000)] at hq
          obtain ⟨hres, -, hroom⟩ := (queuesInstance_iff _ _ _).mp hq
          refine hP.select (g := true) ?_
          have h := hP.called (s := (s.pass (r * 1000)).setPoll i (some p.restarted)) (i := i) (p := p.restarted)
            (e := e.pass (s.msIn (r * 1000))) (t := instanceRecord i p e) ?_ (fun h => by cases h) ?_ hres ?_ rfl rfl ?_
            (set _ (hcore _ rfl rfl))
          · rw [bus_entryPass] at h
            exact h
          · rw [State.poll_setPoll, if_pos rfl]
          · exact (entry_pass s _ _).trans (by rw [show p.restarted.handle = p.handle from rfl, he]; rfl)
          · rw [bus_entryPass]
            exact hroom
          · exact (bus_entryPass e _).symm
        · exact set _ (hcore _ rfl rfl)

theorem gapOut (hs : P s) : P s.gapOut := by
  unfold State.gapOut
  split
  · exact hs
  · exact hP.of_device (s := s.pass ((Config.gapLimit + 1 - s.receiver.gapTimer) * 1000)) rfl (hP.pass _ hs)

end RecordLaw

end Sys2Proof.Machine
end

section
/-! SUPPORT. A law of the records through every deed of a request: it is a law of the device. -/

namespace Sys2Proof.Machine

namespace RecordLaw
variable {P : State → Prop} {Q : Hand → State → Prop} (hP : RecordLaw P Q) {s : State}
include hP

theorem submitted {v : SubmitValues} {e : Entry} (he : s.entry v.handle = some e) (hq : e.state ≠ .quarantined)
    (hroom : (s.bus e.bus).room ≠ 0) (hfree : s.freeRecords ≠ 0) (hs : P s) : P (s.submitted v e) := by
  have hlen : (s.bus e.bus).records.length < 16 := by
    rw [ne_eq, Bus.room_eq_zero_iff] at hroom
    exact Nat.not_le.mp hroom
  exact hP.select (hP.filed (t := submittedRecord s v e s.issueTicket) he hq hlen hfree rfl rfl hs)

theorem flushBus (b : BusId) (hs : P s) : P (s.flushBus b) := by
  have h := hP.decideHosts .cancelled (hP.takeOut (b := b) Txn.isHost hs)
  rw [List.filter_filter] at h
  simp only [Bool.and_self] at h
  exact (hP.empty b _).mp h

/-- BUS_CONFIG acts only where the engine holds nothing (R70). -/
theorem configureBus {v : BusSettings} (hb : (s.bus v.bus).busy = false) (hs : P s) : P (configureBus v s).1 := by
  obtain ⟨hr, ha⟩ : (s.bus v.bus).engine.record? = none ∧ (s.bus v.bus).engine.awaited = none := by
    by_cases ho : (s.bus v.bus).engine = .off
    · rw [ho]
      exact ⟨rfl, rfl⟩
    · have hi : (s.bus v.bus).engine = .idle none := by
        by_contra hi
        rw [Bus.busy_eq_true ho (.inl hi)] at hb
        cases hb
      rw [hi]
      exact ⟨rfl, rfl⟩
  have hrest {e : Engine} (m : Monitor) (hr' : e.record? = none) (ha' : e.awaited = none) :
      (s.bus v.bus).Left (atRest ((s.bus v.bus).configured v) e m) := ⟨rfl, rfl, rfl, hr', ha'⟩
  have hidles : P ((s.setBus v.bus (atRest ((s.bus v.bus).configured v) (.idle none)
      ((s.bus v.bus).configured v).monitor)).select v.bus) := hP.idles (hrest _ rfl rfl) hr ha hs
  cases he : v.enable with
  | false =>
    rw [configureBus_disables hb he]
    exact hP.changed (hrest _ rfl rfl) hr ha (fun h => by cases h) hs
  | true =>
    cases hl : ((s.bus v.bus).configured v).monitor.line with
    | free =>
      rw [configureBus_idles hb he (.inr hl)]
      exact hidles
    | held =>
      by_cases ho : (s.bus v.bus).engine = .off
      · rw [configureBus_held ho he hl]
        exact hP.changed (hrest _ rfl rfl) hr ha (fun h => by cases h) hs
      · have hi : (s.bus v.bus).engine = .idle none := by
          by_contra hi
          rw [Bus.busy_eq_true ho (.inl hi)] at hb
          cases hb
        rw [configureBus_idles hb he (.inl hi)]
        exact hidles

/-- What the engine held is decided or given up (Table 3-4). -/
theorem abandon {u : State} {b : BusId} {e : Engine} (hg : (u.bus b).engine ≠ .idle none)
    (h : Q ⟨b, e.record?.toList, e.awaited, false⟩ u) : P (u.abandon b e) := by
  cases hr : e.record? with
  | some t =>
    have ha : e.awaited = none := by
      cases e with
      | idle w => rcases w with _ | _ | _ <;> simp_all [Engine.record?, Engine.awaited]
      | driving p w =>
        cases w with
        | record t => exact Engine.awaited_driving_record p t
        | probe k => cases hr
      | _ => rfl
    rw [hr, ha] at h
    rw [abandon_record hr]
    exact (hP.empty b _).mp (hP.conclude _ rfl h)
  | none =>
    rw [hr] at h
    cases ha : e.awaited with
    | some k =>
      rw [ha] at h
      rw [abandon_probe ((e.awaitsProbe_iff k).mpr ha)]
      exact (hP.empty b _).mp (hP.giveUpProbe (ts := []) (fun hi => absurd hi hg) h)
    | none =>
      rw [ha] at h
      rw [abandon_nothing hr fun k => by
        rw [← Bool.not_eq_true, e.awaitsProbe_iff, ha]
        exact fun h => by cases h]
      exact (hP.empty b _).mp h

theorem resetBus (b : BusId) (hs : P s) : P (s.resetBus b) := by
  rw [resetBus_eq]
  refine hP.abandon ?_ (hP.leave (b := b) (x := { clearingBegun (s.bus b) none with urgentRun := 0 })
    ⟨rfl, rfl, rfl, rfl, rfl⟩ hs)
  rw [State.bus_setBus_same]
  exact fun h => by cases h

theorem releaseHandle (h : Handle) (hs : P s) : P (s.releaseHandle h) := by
  unfold State.releaseHandle
  split
  · rename_i e he
    split
    · exact hP.release he hs
    · exact hs
  · exact hs

theorem deed {u : State} (h : Deed s u) (hs : P s) : P u := by
  cases h with
  | kept h => exact hP.of_device h hs
  | submitted he hq hroom hfree => exact hP.submitted he hq hroom hfree hs
  | cancelled hf => exact hP.dropTicket _ (findTicket_queued hf) hs
  | marked b =>
    refine hP.moved (quiet_setBus ⟨rfl, rfl, rfl, ?_, ?_, fun h => ?_⟩ fun t ht => ?_) hs
    · rw [Engine.record?_mapRecord, Option.map_map]
      rfl
    · exact Engine.awaited_mapRecord _ _
    · exact Engine.mapRecord_eq_idle h
    · obtain ⟨t', ht', rfl⟩ := Engine.mapRecord_eq_driving ht
      exact .inl ⟨t', ht', rfl, rfl, rfl⟩
  | flushed b => exact hP.flushBus b hs
  | fetched h => exact hP.refill h hs
  | configured h => exact hP.configureBus h hs
  | statusRead b => exact hP.moved (quiet_setBus_same rfl rfl rfl rfl rfl) hs
  | busReset b => exact hP.resetBus b hs
  | targetAdded hh hn ho hs' hp => exact hP.targetAdded hh hn ho hs' hp hs
  | targetRemoved hr hp => exact hP.targetRemoved hr hp hs
  | targetReleased h => exact hP.releaseHandle h hs
  | targetsRead hs' => exact hP.moved (quiet_dropTargetChanges s hs') hs
  | pollSet hp he hfree => exact hP.pollSet hp he hfree hs
  | pollOff i =>
    cases hp : s.poll i with
    | none =>
      rw [pollOff_off hp]
      exact hs
    | some p => exact hP.pollOff (by rw [hp]; simp) hs
  | pollsRead is => exact hP.moved (quiet_dropPollChanges s is) hs
  | listenSet hn => exact hP.listenSet hn hs
  | pageSet b page => exact hP.moved (quiet_setBus_same rfl rfl rfl rfl rfl) hs
  | inboundRead h => exact hP.received _ hs

theorem happening {f : State → State} (hf : DeviceHappening f) (hs : P s) : P (f s) := by
  cases hf with
  | gapTimerExpiry => exact hP.gapOut hs
  | deadlineExpiry k => exact hP.expireTicket hs k
  | retryGapEnd n => exact hP.endGap hs n
  | pollPeriodExpiry i => exact hP.periodOut hs i
  | probeTimerExpiry h => exact hP.probeTimerOut hs h
  | startSeen b change => exact hP.sense hs change
  | stopSeen b => exact hP.stopTold hs
  | busFree b => exact hP.freeTold hs
  | stuck b => exact hP.stuckTold hs
  | startMade b => exact hP.makeStart hs
  | addressByteAnswered b ack => exact hP.addressAnswered hs ack
  | writeByteAnswered b ack => exact hP.writeAnswered hs ack
  | readByteTaken b part => exact hP.readTaken hs part
  | repeatedStartMade b => exact hP.makeRepeatedStart hs
  | stopReleased b rose => exact hP.releaseStop hs rose
  | arbitrationLost b cause => exact hP.arbitrationLoss hs cause
  | probeAnswered b ack => exact hP.probeAnswered hs ack
  | stall b => exact hP.stallBus hs
  | cleared b => exact hP.endClearing hs
  | clearingFailed b => exact hP.failClearing hs
  | addressByteHeard b v => exact hP.addressHeard hs v
  | writeInByte b v => exact hP.writeIn hs v
  | readOutByte b ack => exact hP.readOut hs ack

/-- A law of the records is a law of the device. -/
theorem deviceLaw : DeviceLaw P where
  device := hP.device
  happening _ hf _ _ hs := hP.happening hf hs
  deed _ _ h _ hs := hP.deed h hs
  pass _ us hs := hP.pass us hs
  blank := hP.blank
  assertReset := hP.assertReset

end RecordLaw

end Sys2Proof.Machine
end

section
/-! SUPPORT. What the laws of the records share: entries and polls with the same reading, and records that join a queue. Then the
laws of the directory. -/

namespace Sys2Proof.Machine

/-! ### Entries and polls read alike -/

theorem of_map_core {α β : Type} {core : α → β} {o p : Option α} (h : o.map core = p.map core) {f : α} (hf : o = some f) :
    ∃ e, p = some e ∧ core f = core e := by
  rw [hf] at h
  obtain ⟨e, he, hc⟩ := Option.map_eq_some_iff.mp h.symm
  exact ⟨e, he, hc.symm⟩

/-! ### A record joins a queue -/

/-- The bus `y` is `x` with the record `t` joined to the sub-list of its class. -/
structure Bus.Joined (x y : Bus) (t : Txn) : Prop where
  engine : y.engine = x.engine
  ownAddress : y.ownAddress = x.ownAddress
  sending : y.sending = x.sending
  lists : (t.cls = .urgent ∧ y.urgent.Perm (t :: x.urgent) ∧ y.routine = x.routine) ∨
    (t.cls = .routine ∧ y.routine.Perm (t :: x.routine) ∧ y.urgent = x.urgent)

theorem joined_atTail (x : Bus) (t : Txn) : x.Joined (atTail x t) t := by
  cases hc : t.cls with
  | urgent =>
    rw [atTail, hc]
    exact ⟨rfl, rfl, rfl, .inl ⟨hc, List.perm_append_singleton t x.urgent, rfl⟩⟩
  | routine =>
    rw [atTail, hc]
    exact ⟨rfl, rfl, rfl, .inr ⟨hc, List.perm_append_singleton t x.routine, rfl⟩⟩

theorem joined_atHead (x : Bus) (t : Txn) : x.Joined (atHead x t) t := by
  cases hc : t.cls with
  | urgent =>
    rw [atHead, hc]
    exact ⟨rfl, rfl, rfl, .inl ⟨hc, .refl _, rfl⟩⟩
  | routine =>
    rw [atHead, hc]
    exact ⟨rfl, rfl, rfl, .inr ⟨hc, .refl _, rfl⟩⟩

theorem joined_joinTail (x : Bus) (t : Txn) : x.Joined (x.joinTail t) t := Bus.joinTail_eq x t ▸ joined_atTail x t

/-- A record placed joins its queue, changed in its not-before time alone. -/
theorem joined_place (x : Bus) (t : Txn) (place : Placement) : ∃ n, x.Joined (x.place t place) { t with notBefore := n } := by
  rw [Bus.place_eq]
  cases place with
  | tailWaiting n => exact ⟨some n, joined_atTail x _⟩
  | headQueued => exact ⟨none, joined_atHead x _⟩

namespace Bus.Joined
variable {x y : Bus} {t : Txn} (h : x.Joined y t)
include h

theorem queue : y.queue.Perm (t :: x.queue) := by
  rcases h.lists with ⟨-, hu, hr⟩ | ⟨-, hr, hu⟩
  · rw [Bus.queue, hr]
    exact hu.append_right _
  · rw [Bus.queue, hu]
    exact (hr.append_left _).trans List.perm_middle

theorem records : y.records.Perm (t :: x.records) := by
  rw [Bus.records, h.engine]
  exact h.queue.append_right _

end Bus.Joined

/-! ### The laws of the directory -/

/-- The laws of the directory between happenings (R90, R93, R129). -/
def State.DirectorySound (s : State) : Prop :=
  s.TargetsDistinct ∧ s.OwnAddressesApart ∧ s.ProbesInQuarantine ∧ s.ProbesHeld

theorem quarantined_iff_of_probe {e : Entry} (h : e.state = .quarantined ↔ e.probe ≠ .none) (he : e.probe ≠ .none)
    {p : ProbeStatus} (hp : p ≠ .none) : e.state = .quarantined ↔ p ≠ .none := ⟨fun _ => hp, fun _ => h.mpr he⟩

/-- The laws of the directory, a probe's engine apart that has given it out of its hands. -/
structure DirectoryLaw (k : Hand) (s : State) : Prop where
  distinct : s.TargetsDistinct
  apart : s.OwnAddressesApart
  probes : s.ProbesInQuarantine
  held : ∀ h e, s.entry h = some e → e.probe = .issued →
    (s.bus e.bus).engine.awaited = some h ∨ (e.bus = k.bus ∧ k.probe = some h)

theorem directoryLaw_empty {b : BusId} {g : Bool} {ts : List Txn} {s : State} :
    DirectoryLaw ⟨b, ts, none, g⟩ s ↔ s.DirectorySound := by
  constructor
  · intro h
    refine ⟨h.distinct, h.apart, h.probes, fun k e he hi => ?_⟩
    rw [Engine.awaitsProbe_iff]
    exact (h.held k e he hi).resolve_right fun hn => by cases hn.2
  · rintro ⟨hd, ha, hp, hh⟩
    exact ⟨hd, ha, hp, fun k e he hi => .inl ((Engine.awaitsProbe_iff _ k).mp (hh k e he hi))⟩

namespace DirectoryLaw
variable {k l : Hand} {s u : State}

/-- A change that leaves what the laws of the directory read. -/
theorem same (hs : DirectoryLaw k s) (he : ∀ h, (u.entry h).map Entry.core = (s.entry h).map Entry.core)
    (ho : ∀ b, (u.bus b).ownAddress = (s.bus b).ownAddress)
    (ha : ∀ b h, (s.bus b).engine.awaited = some h → (u.bus b).engine.awaited = some h ∨ (b = l.bus ∧ l.probe = some h))
    (hk : ∀ h, k.probe = some h → l.bus = k.bus ∧ l.probe = some h) : DirectoryLaw l u where
  distinct h j hne e hmem f hmem' := by
    obtain ⟨e', he', hc⟩ := of_map_core (he h) hmem
    obtain ⟨f', hf', hc'⟩ := of_map_core (he j) hmem'
    rw [(Entry.core_eq.mp hc).1.1, (Entry.core_eq.mp hc).1.2, (Entry.core_eq.mp hc').1.1, (Entry.core_eq.mp hc').1.2]
    exact hs.distinct h j hne e' he' f' hf'
  apart h e hmem := by
    obtain ⟨e', he', hc⟩ := of_map_core (he h) hmem
    rw [ho, (Entry.core_eq.mp hc).1.1, (Entry.core_eq.mp hc).1.2]
    exact hs.apart h e' he'
  probes h e hmem := by
    obtain ⟨e', he', hc⟩ := of_map_core (he h) hmem
    obtain ⟨-, hq, hn, -, -⟩ := Entry.core_eq.mp hc
    rw [hq, ne_eq, hn]
    exact hs.probes h e' he'
  held h e hmem hi := by
    obtain ⟨e', he', hc⟩ := of_map_core (he h) hmem
    obtain ⟨⟨hb, -⟩, -, -, -, hi'⟩ := Entry.core_eq.mp hc
    rw [hb]
    rcases hs.held h e' he' (hi'.mp hi) with haw | ⟨hbus, hprobe⟩
    · exact ha _ h haw
    · exact .inr ⟨hbus.trans (hk h hprobe).1.symm, (hk h hprobe).2⟩

/-- One entry changed in its state and its probe status. -/
theorem setEntry (hs : DirectoryLaw k s) {h : Handle} {e f : Entry} (he : s.entry h = some e)
    (ht : f.bus = e.bus ∧ f.address = e.address) (hq : f.state = .quarantined ↔ f.probe ≠ .none)
    (hi : f.probe = .issued → e.bus = l.bus ∧ l.probe = some h) (hk : ∀ j, j ≠ h → k.probe = some j → l.bus = k.bus ∧ l.probe = some j) :
    DirectoryLaw l (s.setEntry h (some f)) := by
  obtain ⟨hb, ha⟩ := ht
  have target {j : Handle} {g : Entry} (hg : (s.setEntry h (some f)).entry j = some g) :
      ∃ g', s.entry j = some g' ∧ g.bus = g'.bus ∧ g.address = g'.address := by
    rw [State.entry_setEntry] at hg
    split at hg
    · rename_i hj
      rw [← Option.some.inj hg, ← hj]
      exact ⟨e, he, hb, ha⟩
    · exact ⟨g, hg, rfl, rfl⟩
  refine ⟨fun j m hne g hg o ho => ?_, fun j g hg => ?_, fun j g hg => ?_, fun j g hg hgi => ?_⟩
  · obtain ⟨g', hg', hgb, hga⟩ := target hg
    obtain ⟨o', ho', hob, hoa⟩ := target ho
    rw [hgb, hga, hob, hoa]
    exact hs.distinct j m hne g' hg' o' ho'
  · obtain ⟨g', hg', hgb, hga⟩ := target hg
    rw [hgb, hga]
    exact hs.apart j g' hg'
  · rw [Option.mem_def, State.entry_setEntry] at hg
    split at hg
    · rw [← Option.some.inj hg]
      exact hq
    · exact hs.probes j g hg
  · rw [State.entry_setEntry] at hg
    split at hg
    · rename_i hj
      rw [← Option.some.inj hg] at hgi ⊢
      rw [hb, ← hj]
      exact .inr (hi hgi)
    · rename_i hj
      exact (hs.held j g hg hgi).imp_right fun ⟨hgb, hp⟩ =>
        ⟨hgb.trans (hk j (fun h' => hj h'.symm) hp).1.symm, (hk j (fun h' => hj h'.symm) hp).2⟩

end DirectoryLaw

end Sys2Proof.Machine
end

section
/-! SUPPORT. The laws of the directory through every move. -/

namespace Sys2Proof.Machine

namespace DirectoryLaw
variable {k l : Hand} {s u : State}

/-- A change of other parts, the directory, the own addresses and the engines' probes as they were. -/
theorem other (hs : DirectoryLaw k s) (he : ∀ h, u.entry h = s.entry h)
    (ho : ∀ b, (u.bus b).ownAddress = (s.bus b).ownAddress)
    (ha : ∀ b, (u.bus b).engine.awaited = (s.bus b).engine.awaited) (hb : l.bus = k.bus) (hp : l.probe = k.probe) :
    DirectoryLaw l u :=
  hs.same (fun h => by rw [he]) ho (fun b h hw => .inl ((ha b).trans hw)) fun h hh => ⟨hb, hp.trans hh⟩

/-- A change of the results, polls and settings. -/
theorem kept (hs : DirectoryLaw k s) (hd : u.directory = s.directory) (hbs : u.buses = s.buses) (hb : l.bus = k.bus)
    (hp : l.probe = k.probe) : DirectoryLaw l u :=
  hs.other (fun h => by rw [State.entry, State.entry, hd]) (fun b => by rw [State.bus, State.bus, hbs])
    (fun b => by rw [State.bus, State.bus, hbs]) hb hp

/-- A bus written with its own address and its engine's probe as they were. -/
theorem setBus (hs : DirectoryLaw k s) {b : BusId} {x : Bus} (ho : x.ownAddress = (s.bus b).ownAddress)
    (ha : x.engine.awaited = (s.bus b).engine.awaited) (hb : l.bus = k.bus) (hp : l.probe = k.probe) :
    DirectoryLaw l (s.setBus b x) := by
  refine hs.other (fun h => rfl) (fun c => ?_) (fun c => ?_) hb hp
  · rw [State.bus_setBus]
    split
    · rename_i hc
      rw [ho, hc]
    · rfl
  · rw [State.bus_setBus]
    split
    · rename_i hc
      rw [ha, hc]
    · rfl

theorem of_sound (b : BusId) (g : Bool) (ts : List Txn) (hs : s.DirectorySound) : DirectoryLaw ⟨b, ts, none, g⟩ s :=
  directoryLaw_empty.mpr hs

theorem sound {b : BusId} {g : Bool} {ts : List Txn} (hs : DirectoryLaw ⟨b, ts, none, g⟩ s) : s.DirectorySound :=
  directoryLaw_empty.mp hs

theorem conclude (hs : DirectoryLaw k s) (t : Txn) (o : TxnOutcome) (hb : l.bus = k.bus) (hp : l.probe = k.probe) :
    DirectoryLaw l (s.conclude t o) := by
  obtain ⟨st, wl, ps, h⟩ := conclude_frame s t o
  rw [h]
  exact hs.kept rfl rfl hb hp

theorem place (hs : DirectoryLaw k s) (t : Txn) (pl : Placement) (hb : l.bus = k.bus) (hp : l.probe = k.probe) :
    DirectoryLaw l (s.setBus t.bus ((s.bus t.bus).place t pl)) := by
  obtain ⟨n, hj⟩ := joined_place (s.bus t.bus) t pl
  exact hs.setBus hj.ownAddress (by rw [hj.engine]) hb hp

theorem joinTail (hs : DirectoryLaw k s) (b : BusId) (t : Txn) (hb : l.bus = k.bus) (hp : l.probe = k.probe) :
    DirectoryLaw l (s.setBus b ((s.bus b).joinTail t)) :=
  hs.setBus (joined_joinTail _ t).ownAddress (by rw [(joined_joinTail _ t).engine]) hb hp

/-- The engine gives its probe out of its hands. -/
theorem leave {b : BusId} {x : Bus} (hx : (s.bus b).Left x) (g : Bool) (ts : List Txn) (hs : s.DirectorySound) :
    DirectoryLaw ⟨b, ts, (s.bus b).engine.awaited, g⟩ (s.setBus b x) := by
  refine (of_sound b g ts hs).same (fun h => rfl) (fun c => ?_) (fun c h hw => ?_) fun h hh => by cases hh
  · rw [State.bus_setBus]
    split
    · rename_i hc
      rw [hx.ownAddress, hc]
    · rfl
  · by_cases hc : b = c
    · subst hc
      exact .inr ⟨rfl, hw⟩
    · rw [State.bus_setBus_ne s x hc]
      exact .inl hw

/-- The entry whose probe was in hand waits on no engine any longer. -/
theorem endProbe {b : BusId} {ts us : List Txn} {h : Handle} {g g' : Bool} (hs : DirectoryLaw ⟨b, ts, some h, g⟩ s)
    (hn : ∀ e, s.entry h = some e → ¬ (e.probe = .issued ∧ e.bus = b)) : DirectoryLaw ⟨b, us, none, g'⟩ s where
  distinct := hs.distinct
  apart := hs.apart
  probes := hs.probes
  held j e he hi := by
    rcases hs.held j e he hi with hw | ⟨hb, hp⟩
    · exact .inl hw
    · obtain rfl : h = j := Option.some.inj hp
      exact absurd ⟨hi, hb⟩ (hn e he)

theorem giveUpProbe {b : BusId} {ts : List Txn} {h : Handle} {g : Bool} (hs : DirectoryLaw ⟨b, ts, some h, g⟩ s) :
    DirectoryLaw ⟨b, ts, none, g⟩ (s.giveUpProbe b h) := by
  by_cases hi : ∃ e, s.entry h = some e ∧ e.probe = .issued ∧ e.bus = b
  · obtain ⟨e, he, hp, hb⟩ := hi
    rw [giveUpProbe_awaited he hp hb]
    exact hs.setEntry he ⟨rfl, rfl⟩ (quarantined_iff_of_probe (hs.probes h e he) (by rw [hp]; simp) (by simp))
      (fun h => by cases h) fun j hj hh => absurd (Option.some.inj hh).symm hj
  · have hn : ∀ e, s.entry h = some e → ¬ (e.probe = .issued ∧ e.bus = b) := fun e he hc => hi ⟨e, he, hc⟩
    rw [giveUpProbe_unawaited fun e he => by rw [← not_and_or]; exact hn e he]
    exact hs.endProbe hn

/-- The engine takes the probe in hand. -/
theorem take {b : BusId} {x : Bus} {h : Handle} {g : Bool} (hs : DirectoryLaw ⟨b, [], some h, g⟩ s)
    (hn : (s.bus b).engine.awaited = none) (ho : x.ownAddress = (s.bus b).ownAddress) (hx : x.engine.awaited = some h) :
    DirectoryLaw ⟨b, [], none, g⟩ (s.setBus b x) where
  distinct := hs.distinct
  apart j f hf := by
    rw [State.bus_setBus]
    split
    · rename_i hb
      rw [ho, hb]
      exact hs.apart j f hf
    · exact hs.apart j f hf
  probes := hs.probes
  held j f hf hi := by
    refine .inl ?_
    rw [State.bus_setBus]
    rcases hs.held j f hf hi with hw | ⟨hb, hp⟩
    · split
      · rename_i hb
        rw [← hb, hn] at hw
        cases hw
      · exact hw
    · rw [if_pos hb.symm, hx]
      exact hp

/-- Selection issues a due probe to an engine that holds none. -/
theorem select {b : BusId} {g : Bool} (hs : DirectoryLaw ⟨b, [], none, g⟩ s) : (s.select b).DirectorySound := by
  rcases select_cases s b with h | ⟨h, hi, hd, he⟩ | ⟨t, x, hi, -, hc, he⟩
  · rw [h]
    exact hs.sound
  · obtain ⟨⟨e, hentry, hbus, hdue⟩, -⟩ := (dueProbe_eq_some_iff s b h).mp hd
    have hissued : DirectoryLaw ⟨b, [], some h, g⟩ (s.setEntry h (some { e with probe := .issued })) :=
      hs.setEntry hentry ⟨rfl, rfl⟩ (quarantined_iff_of_probe (hs.probes h e hentry) (by rw [hdue]; simp) (by simp))
        (fun _ => ⟨hbus, rfl⟩) fun _ _ h => by cases h
    rw [he, hentry]
    exact (hissued.take (x := { s.bus b with engine := .idle (some (.probe h)) }) (congrArg Engine.awaited hi) rfl rfl).sound
  · rw [he]
    have hx : x.ownAddress = (s.bus b).ownAddress := by
      obtain ⟨-, before, after, ⟨-, hx⟩ | ⟨-, hx⟩⟩ := chooseRecord_some hc
      all_goals rw [hx]
    exact (hs.setBus (l := ⟨b, [], none, g⟩) (x := { x with
      engine := .idle (some (.record { t with progress := Progress.zero })) }) hx (congrArg Engine.awaited hi).symm rfl rfl).sound

theorem targetAdded {h : Handle} {e : Entry} (hs : s.DirectorySound) (hh : s.entry h = none)
    (hn : s.targetNamed e.bus e.address = false) (ho : (s.bus e.bus).ownAddress ≠ some e.address) (hq : e.state = .new)
    (hp : e.probe = .none) : (s.setEntry h (some e)).DirectorySound := by
  obtain ⟨hd, ha, hpr, hheld⟩ := hs
  have hnew (j : Handle) (f : Entry) (hf : s.entry j = some f) : ¬ (f.bus = e.bus ∧ f.address = e.address) := fun hc => by
    have := (State.targetNamed_iff s e.bus e.address).mpr ⟨j, f, hf, hc.1, hc.2⟩
    rw [hn] at this
    cases this
  have cases_entry {j : Handle} {f : Entry} (hf : (s.setEntry h (some e)).entry j = some f) :
      (j = h ∧ f = e) ∨ (j ≠ h ∧ s.entry j = some f) := by
    rw [State.entry_setEntry] at hf
    split at hf
    · rename_i hj
      exact .inl ⟨hj.symm, (Option.some.inj hf).symm⟩
    · rename_i hj
      exact .inr ⟨fun h' => hj h'.symm, hf⟩
  refine ⟨fun j m hne f hf o ho' => ?_, fun j f hf => ?_, fun j f hf => ?_, fun j f hf hfi => ?_⟩
  · rcases cases_entry hf with ⟨rfl, rfl⟩ | ⟨hj, hfs⟩
    · rcases cases_entry ho' with ⟨rfl, rfl⟩ | ⟨hm, hos⟩
      · exact absurd rfl hne
      · exact fun hc => hnew m o hos ⟨hc.1.symm, hc.2.symm⟩
    · rcases cases_entry ho' with ⟨rfl, rfl⟩ | ⟨hm, hos⟩
      · exact hnew j f hfs
      · exact hd j m hne f hfs o hos
  · rcases cases_entry hf with ⟨rfl, rfl⟩ | ⟨hj, hf⟩
    · exact ho
    · exact ha j f hf
  · rcases cases_entry hf with ⟨rfl, rfl⟩ | ⟨hj, hf⟩
    · rw [hq, hp]
      exact ⟨fun h => (by cases h), fun h => absurd rfl h⟩
    · exact hpr j f hf
  · rcases cases_entry hf with ⟨rfl, rfl⟩ | ⟨hj, hf⟩
    · rw [hp] at hfi
      cases hfi
    · exact hheld j f hf hfi

theorem targetRemoved (h : Handle) (hs : s.DirectorySound) : (s.setEntry h none).DirectorySound := by
  obtain ⟨hd, ha, hp, hheld⟩ := hs
  have sub {j : Handle} {f : Entry} (hf : (s.setEntry h none).entry j = some f) : s.entry j = some f := by
    rw [State.entry_setEntry] at hf
    split at hf
    · cases hf
    · exact hf
  exact ⟨fun j m hne f hf o ho => hd j m hne f (sub hf) o (sub ho), fun j f hf => ha j f (sub hf),
    fun j f hf => hp j f (sub hf), fun j f hf hi => hheld j f (sub hf) hi⟩

theorem listenSet {v : ListenSettings} (hn : s.entryAt v.bus v.ownAddress = false) (hs : s.DirectorySound) :
    (s.setBus v.bus { s.bus v.bus with ownAddress := v.ownAddress, broadcastAccept := v.broadcastAccept }).DirectorySound := by
  obtain ⟨hd, ha, hp, hheld⟩ := hs
  refine ⟨hd, fun j f hf => ?_, hp, fun j f hf hi => ?_⟩
  · rw [State.bus_setBus]
    split
    · rename_i hb
      intro hc
      have := (State.entryAt_iff s v.bus v.ownAddress).mpr ⟨j, f, hf, hb.symm, hc.symm⟩
      rw [hn] at this
      cases this
    · exact ha j f hf
  · rw [State.bus_setBus]
    split
    · rename_i hb
      have := hheld j f hf hi
      rw [← hb] at this
      exact this
    · exact hheld j f hf hi

end DirectoryLaw

theorem recordLaw_directory : RecordLaw State.DirectorySound DirectoryLaw where
  device _ := Iff.rfl
  empty _ _ := directoryLaw_empty
  quiet h hs := hs.same h.entry h.ownAddress (fun b j hw => .inl ((h.awaited b).trans hw)) fun _ hh => ⟨rfl, hh⟩
  leave hx hs := .leave hx _ _ hs
  conclude o _ hs := hs.conclude _ o rfl rfl
  free hs := hs.other (fun _ => rfl) (fun _ => rfl) (fun _ => rfl) rfl rfl
  place pl _ _ _ _ hs := hs.place _ pl rfl rfl
  giveUpProbe _ hs := hs.giveUpProbe
  endProbe hn hs := hs.endProbe hn
  select hs := hs.select
  filed {s t e} _ _ _ _ _ _ hs :=
    ((DirectoryLaw.of_sound e.bus true [] hs).kept (l := ⟨e.bus, [], none, true⟩)
      (u := { s with nextTicket := ticketAfter s.issueTicket }) rfl rfl rfl rfl).setBus (joined_joinTail _ t).ownAddress
      (congrArg Engine.awaited (joined_joinTail _ t).engine) rfl rfl
  called _ _ _ _ _ _ _ _ hs := (DirectoryLaw.of_sound _ true [] hs).joinTail _ _ rfl rfl
  requeue _ hs := (DirectoryLaw.of_sound _ true [] hs).setBus rfl rfl rfl rfl
  probeDue {s h e r} he hp hs :=
    (DirectoryLaw.of_sound e.bus true [] hs).setEntry he ⟨rfl, rfl⟩
      (quarantined_iff_of_probe (hs.2.2.1 h e he) (by rw [hp]; simp) (by simp)) (fun h => by cases h) fun _ _ h => by cases h
  takeOut _ hs := (DirectoryLaw.of_sound _ false [] hs).setBus rfl rfl rfl rfl
  unissued {s h e r} n he hp hs :=
    ((DirectoryLaw.of_sound 0 true [] hs).setEntry (l := ⟨0, [], none, true⟩)
      (f := { e with refusals := n, probe := .timing r }) he ⟨rfl, rfl⟩ (quarantined_iff_of_probe (hs.2.2.1 h e he) (by rw [hp]; simp) (by simp)) (fun h => by cases h)
      fun _ _ h => by cases h).sound
  release {s h e} he hs := by
    rw [release_eq]
    have hback := (DirectoryLaw.of_sound 0 true [] hs).setEntry (l := ⟨0, [], none, true⟩) (f := e.back) he ⟨rfl, rfl⟩
      ⟨fun h => (by cases h), fun h => absurd rfl h⟩ (fun h => by cases h) fun _ _ h => by cases h
    exact (hback.kept (l := ⟨0, [], none, true⟩) rfl rfl rfl rfl).sound
  markOut {s h e} n he _ _ hs := by
    have hout := (DirectoryLaw.of_sound 0 true [] hs).setEntry (l := ⟨0, [], none, true⟩) (f := e.out n) he ⟨rfl, rfl⟩
      ⟨fun _ h => (by cases h), fun _ => rfl⟩ (fun h => by cases h) fun _ _ h => by cases h
    exact (hout.kept (l := ⟨0, [], none, true⟩) rfl rfl rfl rfl).sound
  refill _ hs := ((DirectoryLaw.of_sound 0 true [] hs).kept (l := ⟨0, [], none, true⟩) rfl rfl rfl rfl).sound
  pollSet _ _ _ hs := ((DirectoryLaw.of_sound 0 true [] hs).kept (l := ⟨0, [], none, true⟩) rfl rfl rfl rfl).sound
  pollOff {s i} hon hs := by
    refine ((DirectoryLaw.of_sound 0 true [] hs).other (l := ⟨0, [], none, true⟩) (fun h => ?_) (fun b => ?_) (fun b => ?_)
      rfl rfl).sound
    · rw [pollOff_frame]
      rfl
    · rw [bus_pollOff hon]
      rfl
    · rw [bus_pollOff hon, releasePoll_engine, Engine.awaited_mapRecord]
  targetAdded hh hn ho hq hp hs := DirectoryLaw.targetAdded hs hh hn ho hq hp
  targetRemoved _ _ hs := DirectoryLaw.targetRemoved _ hs
  listenSet hn hs := DirectoryLaw.listenSet hn hs
  blank _ hs := ⟨hs.targetsDistinct, hs.ownAddressesApart, hs.probesInQuarantine, hs.probesHeld⟩
  assertReset s hs := by
    refine ((DirectoryLaw.of_sound 0 true [] hs).other (l := ⟨0, [], none, true⟩) (u := s.assertReset) (fun h => rfl)
      (fun b => ?_) (fun b => ?_) rfl rfl).sound
    · rw [bus_assertReset]
    · rw [bus_assertReset]

/-- Settles O59: the laws of the directory are kept by each move of a record or a probe, and so are a law of the device. -/
theorem stepKeepsTheDirectoryLaws : Obligations.StepKeepsTheDirectoryLaws :=
  fun _ _ hs h => recordLaw_directory.deviceLaw.step hs h

end Sys2Proof.Machine
end

section
/-! SUPPORT. The laws of the targets in use: what a change must leave for them to hold. -/

namespace Sys2Proof.Machine

/-- What the laws of the targets read of an entry: its target, and whether it is QUARANTINED. -/
def Entry.standing (e : Entry) : (BusId × BusAddress) × Bool := ((e.bus, e.address), e.state == .quarantined)

theorem Entry.standing_eq {e f : Entry} : e.standing = f.standing ↔
    (e.bus = f.bus ∧ e.address = f.address) ∧ (e.state = .quarantined ↔ f.state = .quarantined) := by
  simp only [Entry.standing, Prod.mk.injEq, beq_eq_beq]

theorem Entry.standing_of_core {e f : Entry} (h : e.core = f.core) : e.standing = f.standing := by
  obtain ⟨ht, hq, -⟩ := Entry.core_eq.mp h
  exact Entry.standing_eq.mpr ⟨ht, hq⟩

theorem standing_of_core {o p : Option Entry} (h : o.map Entry.core = p.map Entry.core) :
    o.map Entry.standing = p.map Entry.standing := by
  cases o with
  | none => rw [Option.map_eq_none_iff.mp h.symm]
  | some e =>
    obtain ⟨f, hf, hc⟩ := of_map_core h rfl
    rw [hf]
    exact congrArg some (Entry.standing_of_core hc)

/-- The record's entry is in use on the bus, and the record names it (R1, R3, R103). -/
def State.Homed (s : State) (b : BusId) (t : Txn) : Prop := t.bus = b ∧ (s.entry t.handle).map Entry.bus = some b

theorem homed_of_core {s : State} {b : BusId} {t u : Txn} (hc : u.core = t.core) (h : s.Homed b t) : s.Homed b u := by
  obtain ⟨-, hh, hb⟩ := Txn.core_eq.mp hc
  rw [State.Homed, hh, hb]
  exact h

theorem homed_congr {s u : State} {b : BusId} {t : Txn}
    (he : (u.entry t.handle).map Entry.bus = (s.entry t.handle).map Entry.bus) (h : s.Homed b t) : u.Homed b t :=
  ⟨h.1, he.trans h.2⟩

theorem bus_of_standing {o p : Option Entry} (h : o.map Entry.standing = p.map Entry.standing) :
    o.map Entry.bus = p.map Entry.bus := by
  have := congrArg (Option.map fun x : (BusId × BusAddress) × Bool => x.1.1) h
  rw [Option.map_map, Option.map_map] at this
  exact this

theorem quarantined_congr {s u : State} {h : Handle} (he : (u.entry h).map Entry.standing = (s.entry h).map Entry.standing) :
    u.quarantined h = s.quarantined h := by
  have := congrArg (fun o : Option ((BusId × BusAddress) × Bool) => (o.map Prod.snd).getD false) he
  unfold State.quarantined
  cases hu : u.entry h <;> cases hs : s.entry h <;> rw [hu, hs] at this <;> exact this

theorem quarantined_eq_false {s : State} {h : Handle} {e : Entry} (he : s.entry h = some e) :
    s.quarantined h = false ↔ e.state ≠ .quarantined := by
  rw [State.quarantined, he]
  exact beq_eq_false_iff_ne

/-- What holds of the bus written and of the other buses holds of every bus. -/
theorem forall_bus_setBus {s : State} {b : BusId} {x : Bus} {R : BusId → Bus → Prop} (hb : R b x)
    (hs : ∀ c, R c (s.bus c)) (c : BusId) : R c ((s.setBus b x).bus c) := by
  by_cases hc : b = c
  · subst hc
    rwa [State.bus_setBus_same]
  · rw [State.bus_setBus_ne s x hc]
    exact hs c

/-- The laws of the targets in use between happenings (R18, R30, R46, R90, R103, R111, R129). -/
structure State.TargetSound (s : State) : Prop where
  homed : ∀ b, ∀ t ∈ (s.bus b).records, s.Homed b t
  polls : s.PollsFollowTargets
  queues : s.QueuesOutOfQuarantine
  apart : s.OwnAddressesApart
  addresses : s.AddressesSent

theorem State.targetSound_iff (s : State) :
    s.TargetSound ↔ s.RecordsAtHome ∧ s.TargetsUsed ∧ s.PollsFollowTargets ∧ s.QueuesOutOfQuarantine ∧
      s.OwnAddressesApart ∧ s.AddressesSent := by
  constructor
  · intro h
    refine ⟨fun b t ht => (h.homed b t ht).1, fun t ht => ?_, h.polls, h.queues, h.apart, h.addresses⟩
    obtain ⟨b, hb⟩ := mem_records.mp ht
    rw [(h.homed b t hb).2, (h.homed b t hb).1]
  · rintro ⟨hh, hu, hp, hq, ho, ha⟩
    refine ⟨fun b t ht => ⟨hh b t ht, ?_⟩, hp, hq, ho, ha⟩
    rw [hu t (mem_records.mpr ⟨b, ht⟩), hh b t ht]

/-- The laws of the targets, the records in hand among those whose entries are in use. -/
structure TargetLaw (k : Hand) (s : State) : Prop where
  sound : s.TargetSound
  hand : ∀ t ∈ k.records, s.Homed k.bus t

namespace State.TargetSound
variable {s u : State} (hs : s.TargetSound)
include hs

theorem homed_queue {b : BusId} {t : Txn} (ht : t ∈ (s.bus b).queue) : s.Homed b t :=
  hs.homed b t (Bus.mem_records.mpr (.inl ht))

theorem homed_record {b : BusId} {t : Txn} (ht : (s.bus b).engine.record? = some t) : s.Homed b t :=
  hs.homed b t (Bus.mem_records.mpr (.inr ht))

/-- Records moved between queues and engines, the entries standing as they did. -/
theorem of_records (he : ∀ h, (u.entry h).map Entry.standing = (s.entry h).map Entry.standing)
    (hp : ∀ i p, u.poll i = some p → ∃ p', s.poll i = some p' ∧ p.core = p'.core)
    (ho : ∀ b, (u.bus b).ownAddress = (s.bus b).ownAddress) (hl : u.resetLow = s.resetLow)
    (hq : ∀ b, ∀ t ∈ (u.bus b).queue, s.Homed b t ∧ s.quarantined t.handle = false)
    (hr : ∀ b t, (u.bus b).engine.record? = some t → s.Homed b t)
    (ha : ∀ b t, (u.bus b).engine = .driving .address (.record t) → AddressStands s u b t) : u.TargetSound where
  homed b t ht := by
    refine homed_congr (bus_of_standing (he _)) ?_
    rcases Bus.mem_records.mp ht with ht | ht
    · exact (hq b t ht).1
    · exact hr b t ht
  polls i p hi := by
    obtain ⟨p', hi', hc⟩ := hp i p hi
    obtain ⟨hh, hpaused⟩ := Poll.core_eq.mp hc
    obtain ⟨e, hmem, hiff⟩ := hs.polls i p' hi'
    obtain ⟨f, hf, hst⟩ := of_map_core (he p.handle).symm (show s.entry p.handle = some e from hh ▸ hmem)
    exact ⟨f, hf, hpaused.trans (hiff.trans (Entry.standing_eq.mp hst).2)⟩
  queues b t ht := by
    rw [quarantined_congr (he _)]
    exact (hq b t ht).2
  apart h e hmem := by
    obtain ⟨e', he', hst⟩ := of_map_core (he h) hmem
    obtain ⟨⟨hb, haddr⟩, -⟩ := Entry.standing_eq.mp hst
    rw [ho, hb, haddr]
    exact hs.apart h e' he'
  addresses hlow b t hengine e hentry := by
    obtain ⟨e', he', hst⟩ := of_map_core (he t.handle) hentry
    obtain ⟨⟨-, haddr⟩, -⟩ := Entry.standing_eq.mp hst
    rw [haddr]
    rcases ha b t hengine with ⟨t', ht', hh, hreads, hsent⟩ | hsent
    · rw [hsent, ← hreads]
      exact hs.addresses (hl.symm.trans hlow) b t' ht' e' (hh ▸ he')
    · have hhome := hr b t (by rw [hengine]; rfl)
      have hbus : e'.bus = b := by
        have := hhome.2
        rw [he'] at this
        exact Option.some.inj this
      have hapart := hs.apart t.handle e' he'
      rw [hbus] at hapart
      rw [hsent, addressSent_entry (w := .record t) he' hapart]

/-- A change of the directory and the polls that leaves the targets of the records. -/
theorem of_entries (hb : u.buses = s.buses) (hl : u.resetLow = s.resetLow)
    (ht : ∀ h e, (∃ t ∈ s.records, t.handle = h) → (s.entry h = some e →
      ∃ f, u.entry h = some f ∧ f.bus = e.bus ∧ f.address = e.address))
    (hq : ∀ b, ∀ t ∈ (s.bus b).queue, u.quarantined t.handle = false) (ha : u.OwnAddressesApart)
    (hp : u.PollsFollowTargets) : u.TargetSound := by
  have hbus (b : BusId) : u.bus b = s.bus b := by rw [State.bus, State.bus, hb]
  refine ⟨fun b t hmem => ?_, hp, fun b t hmem => ?_, ha, fun hlow b t hengine f hf => ?_⟩
  · rw [hbus] at hmem
    obtain ⟨hhome, hentry⟩ := hs.homed b t hmem
    obtain ⟨e, he, heb⟩ := Option.map_eq_some_iff.mp hentry
    obtain ⟨f, hf, hfb, -⟩ := ht _ e ⟨t, mem_records.mpr ⟨b, hmem⟩, rfl⟩ he
    refine ⟨hhome, ?_⟩
    rw [hf, ← heb, ← hfb]
    rfl
  · rw [hbus] at hmem
    exact hq b t hmem
  · rw [hbus] at hengine ⊢
    have hr : (s.bus b).engine.record? = some t := by rw [hengine]; rfl
    obtain ⟨e, he, -⟩ := Option.map_eq_some_iff.mp (hs.homed_record hr).2
    obtain ⟨f', hf', -, haddr⟩ := ht _ e ⟨t, mem_records.mpr ⟨b, Bus.mem_records.mpr (.inr hr)⟩, rfl⟩ he
    obtain rfl : f' = f := Option.some.inj (hf'.symm.trans hf)
    rw [haddr]
    exact hs.addresses (hl.symm.trans hlow) b t hengine e he

theorem quiet (h : Quiet s u) : u.TargetSound := by
  refine hs.of_records (fun j => standing_of_core (h.entry j)) (fun i p hi => of_map_core (h.poll i) hi) h.ownAddress
    h.resetLow (fun b t ht => ?_) (fun b t ht => ?_) h.address
  · have hmem : t ∈ (s.bus b).queue := by rwa [Bus.queue, h.urgent, h.routine] at ht
    exact ⟨hs.homed_queue hmem, hs.queues b t hmem⟩
  · obtain ⟨t', ht', hc⟩ := of_map_core (h.record b) ht
    exact homed_of_core hc (hs.homed_record ht')

/-- One bus written, its queue of records at home out of quarantine. -/
theorem setBus {b : BusId} {x : Bus} (ho : x.ownAddress = (s.bus b).ownAddress)
    (hq : ∀ t ∈ x.queue, s.Homed b t ∧ s.quarantined t.handle = false)
    (hr : ∀ t, x.engine.record? = some t → s.Homed b t)
    (ha : ∀ t, x.engine = .driving .address (.record t) →
      ∃ t', (s.bus b).engine = .driving .address (.record t') ∧ t'.handle = t.handle ∧
        (Work.record t').reads = (Work.record t).reads ∧ x.sending = (s.bus b).sending) : (s.setBus b x).TargetSound := by
  exact hs.of_records (u := s.setBus b x) (fun _ => rfl) (fun i p hi => ⟨p, hi, rfl⟩)
    (forall_bus_setBus (R := fun c y => y.ownAddress = (s.bus c).ownAddress) ho fun c => rfl) rfl
    (forall_bus_setBus (R := fun c y => ∀ t ∈ y.queue, s.Homed c t ∧ s.quarantined t.handle = false) hq
      fun c t ht => ⟨hs.homed_queue ht, hs.queues c t ht⟩)
    (forall_bus_setBus (R := fun c y => ∀ t, y.engine.record? = some t → s.Homed c t) hr fun c t ht => hs.homed_record ht)
    fun c t ht => .inl <| forall_bus_setBus (s := s) (R := fun c y => ∀ t, y.engine = .driving .address (.record t) →
      ∃ t', (s.bus c).engine = .driving .address (.record t') ∧ t'.handle = t.handle ∧
        (Work.record t').reads = (Work.record t).reads ∧ y.sending = (s.bus c).sending) ha
      (fun c t ht => ⟨t, ht, rfl, rfl, rfl⟩) c t ht

end State.TargetSound

end Sys2Proof.Machine
end

section
/-! SUPPORT. The laws of the targets in use through every move. -/

namespace Sys2Proof.Machine

/-- Polls changed one by one, each following its target. -/
theorem pollsFollowTargets_mapPolls {s u : State} {f : Poll → Poll} (hu : u.polls = (s.mapPolls f).polls)
    (hf : ∀ i p, s.poll i = some p → (f p).handle = p.handle ∧
      ∃ e, u.entry p.handle = some e ∧ ((f p).state = .paused ↔ e.state = .quarantined)) : u.PollsFollowTargets := by
  intro i p hi
  have hpoll : u.poll i = (s.poll i).map f := by
    rw [← State.poll_mapPolls, State.poll, State.poll, hu]
  rw [Option.mem_def, hpoll] at hi
  obtain ⟨q, hq, rfl⟩ := Option.map_eq_some_iff.mp hi
  obtain ⟨hh, e, he, hiff⟩ := hf i q hq
  exact ⟨e, by rw [hh]; exact he, hiff⟩

namespace State.TargetSound
variable {s : State} (hs : s.TargetSound)
include hs

theorem results (st : List Completion) (wl : List Decided) : ({ s with store := st, waitList := wl } : State).TargetSound :=
  ⟨hs.homed, hs.polls, hs.queues, hs.apart, hs.addresses⟩

theorem conclude (t : Txn) (o : TxnOutcome) : (s.conclude t o).TargetSound := by
  unfold State.conclude
  split
  · obtain ⟨st, wl, h⟩ := deliver_frame s t o
    rw [h]
    exact hs.results st wl
  · exact hs.quiet (quiet_pollOutcome s _ _ _)
  · exact hs

/-- A record at home joins its queue. -/
theorem joined {b : BusId} {x : Bus} {t : Txn} (hj : (s.bus b).Joined x t) (ht : s.Homed b t)
    (hq : s.quarantined t.handle = false) : (s.setBus b x).TargetSound := by
  refine hs.setBus hj.ownAddress (fun u hu => ?_) (fun u hu => ?_) fun u hu => ?_
  · rcases List.mem_cons.mp (hj.queue.mem_iff.mp hu) with rfl | hu
    · exact ⟨ht, hq⟩
    · exact ⟨hs.homed_queue hu, hs.queues b u hu⟩
  · rw [hj.engine] at hu
    exact hs.homed_record hu
  · rw [hj.engine] at hu
    exact ⟨u, hu, rfl, rfl, hj.sending⟩

/-- Queued records leave, or are changed in what the laws do not read. -/
theorem requeued {b : BusId} {x : Bus} (he : x.engine = (s.bus b).engine) (ho : x.ownAddress = (s.bus b).ownAddress)
    (hsend : x.sending = (s.bus b).sending) (hq : ∀ t ∈ x.queue, ∃ u ∈ (s.bus b).queue, t.core = u.core) :
    (s.setBus b x).TargetSound := by
  refine hs.setBus ho (fun t ht => ?_) (fun t ht => hs.homed_record (he ▸ ht)) fun t ht => ⟨t, he ▸ ht, rfl, rfl, hsend⟩
  obtain ⟨u, hu, hc⟩ := hq t ht
  refine ⟨homed_of_core hc (hs.homed_queue hu), ?_⟩
  rw [(Txn.core_eq.mp hc).2.1]
  exact hs.queues b u hu

/-- An entry changed in neither its target nor its quarantine. -/
theorem restand {h : Handle} {e f : Entry} (he : s.entry h = some e) (hf : f.standing = e.standing) :
    (s.setEntry h (some f)).TargetSound := by
  refine hs.of_records (fun k => ?_) (fun i p hi => ⟨p, hi, rfl⟩) (fun _ => rfl) rfl
    (fun b t ht => ⟨hs.homed_queue ht, hs.queues b t ht⟩) (fun b t ht => hs.homed_record ht)
    fun b t ht => .inl ⟨t, ht, rfl, rfl, rfl⟩
  rw [State.entry_setEntry]
  split
  · rename_i hk
    rw [← hk, he]
    exact congrArg some hf
  · rfl

theorem giveUpProbe (b : BusId) (h : Handle) : (s.giveUpProbe b h).TargetSound := by
  rcases giveUpProbe_cases s b h with hk | ⟨e, he, -, -, hk⟩
  · rw [hk]
    exact hs
  · rw [hk]
    exact hs.restand he rfl

theorem select (b : BusId) : (s.select b).TargetSound := by
  rcases select_cases s b with h | ⟨h, hi, hd, he⟩ | ⟨t, x, hi, -, hc, he⟩
  · rw [h]
    exact hs
  · obtain ⟨⟨e, hentry, -, -⟩, -⟩ := (dueProbe_eq_some_iff s b h).mp hd
    rw [he, hentry]
    have hissued : (s.setEntry h (some { e with probe := .issued })).TargetSound := hs.restand hentry rfl
    exact hissued.setBus (x := { s.bus b with engine := .idle (some (.probe h)) }) rfl
      (fun t ht => ⟨hissued.homed_queue ht, hissued.queues b t ht⟩) (fun t ht => by cases ht) fun t ht => by cases ht
  · rw [he]
    obtain ⟨-, before, after, hx⟩ := chooseRecord_some hc
    have hsub : t ∈ (s.bus b).queue ∧ (∀ u ∈ x.queue, u ∈ (s.bus b).queue) ∧ x.ownAddress = (s.bus b).ownAddress := by
      rcases hx with ⟨hl, rfl⟩ | ⟨hl, rfl⟩
      · simp only [Bus.queue, hl, List.mem_append, List.mem_cons]
        exact ⟨.inl (.inr (.inl trivial)), fun u hu => hu.imp_left fun hu => hu.imp_right .inr, trivial⟩
      · simp only [Bus.queue, hl, List.mem_append, List.mem_cons]
        exact ⟨.inr (.inr (.inl trivial)), fun u hu => hu.imp_right fun hu => hu.imp_right .inr, trivial⟩
    obtain ⟨ht, hq, ho⟩ := hsub
    refine hs.setBus (x := { x with engine := .idle (some (.record { t with progress := Progress.zero })) }) ho
      (fun u hu => ⟨hs.homed_queue (hq u hu), hs.queues b u (hq u hu)⟩) (fun u hu => ?_) fun u hu => by cases hu
    rw [← Option.some.inj hu]
    exact homed_of_core (t := t) rfl (hs.homed_queue ht)

/-! ### The directory and the polls -/

theorem release {h : Handle} {e : Entry} (he : s.entry h = some e) : (s.release h e).TargetSound := by
  have hentry (k : Handle) := entry_release s h e k
  refine hs.of_entries rfl rfl (fun k f _ hf => ?_) (fun b t ht => ?_) (fun k f hf => ?_)
    (pollsFollowTargets_mapPolls rfl fun i p hp => ?_)
  · rw [hentry]
    split
    · rename_i hk
      rw [hk, he] at hf
      rw [← Option.some.inj hf]
      exact ⟨e.back, rfl, rfl, rfl⟩
    · exact ⟨f, hf, rfl, rfl⟩
  · by_cases hk : t.handle = h
    · exact (quarantined_eq_false ((hentry t.handle).trans (if_pos hk))).mpr fun h => by cases h
    · rw [quarantined_congr (congrArg _ ((hentry t.handle).trans (if_neg hk)))]
      exact hs.queues b t ht
  · rw [Option.mem_def, hentry] at hf
    split at hf
    · rw [← Option.some.inj hf]
      exact hs.apart h e he
    · exact hs.apart k f hf
  · obtain ⟨f, hf, hiff⟩ := hs.polls i p hp
    cases hst : p.state with
    | active r =>
      refine ⟨rfl, ?_⟩
      rw [hentry]
      split
      · exact ⟨e.back, rfl, fun h => (by cases hst.symm.trans h), fun h => by cases h⟩
      · exact ⟨f, hf, hiff⟩
    | paused =>
      dsimp only
      split
      · rename_i hk
        refine ⟨rfl, ?_⟩
        rw [hentry, if_pos hk]
        exact ⟨e.back, rfl, fun h => (by cases h), fun h => by cases h⟩
      · rename_i hk
        refine ⟨rfl, ?_⟩
        rw [hentry, if_neg hk]
        exact ⟨f, hf, hiff⟩

theorem markOut {h : Handle} {e : Entry} (n : Nat) (he : s.entry h = some e)
    (hclear : ∀ t ∈ (s.bus e.bus).queue, t.handle ≠ h) : ((s.setEntry h (some (e.out n))).pausePolls h).TargetSound := by
  have hentry (k : Handle) : ((s.setEntry h (some (e.out n))).pausePolls h).entry k =
      if h = k then some (e.out n) else s.entry k := State.entry_setEntry s h k _
  refine hs.of_entries rfl rfl (fun k f _ hf => ?_) (fun b t ht => ?_) (fun k f hf => ?_)
    (pollsFollowTargets_mapPolls rfl fun i p hp => ?_)
  · rw [hentry]
    split
    · rename_i hk
      rw [← hk, he] at hf
      rw [← Option.some.inj hf]
      exact ⟨e.out n, rfl, rfl, rfl⟩
    · exact ⟨f, hf, rfl, rfl⟩
  · have hk : h ≠ t.handle := fun hk => by
      have hbus := (hs.homed_queue ht).2
      rw [← hk, he] at hbus
      obtain rfl : e.bus = b := Option.some.inj hbus
      exact hclear t ht hk.symm
    rw [quarantined_congr (congrArg _ ((hentry t.handle).trans (if_neg hk)))]
    exact hs.queues b t ht
  · rw [Option.mem_def, hentry] at hf
    split at hf
    · rw [← Option.some.inj hf]
      exact hs.apart h e he
    · exact hs.apart k f hf
  · obtain ⟨f, hf, hiff⟩ := hs.polls i p hp
    by_cases hk : h = p.handle
    · have hout : ((s.setEntry h (some (e.out n))).pausePolls h).entry p.handle = some (e.out n) := by
        rw [hentry, if_pos hk]
      cases hst : p.state with
      | active r =>
        dsimp only
        rw [if_pos hk.symm]
        exact ⟨rfl, e.out n, hout, fun _ => rfl, fun _ => rfl⟩
      | paused => exact ⟨rfl, e.out n, hout, fun _ => rfl, fun _ => hst⟩
    · have hkept : ((s.setEntry h (some (e.out n))).pausePolls h).entry p.handle = some f := by
        rw [hentry, if_neg hk]
        exact hf
      cases hst : p.state with
      | active r =>
        dsimp only
        rw [if_neg fun h' => hk h'.symm]
        exact ⟨rfl, f, hkept, hiff⟩
      | paused => exact ⟨rfl, f, hkept, hiff⟩

theorem targetAdded {h : Handle} {e : Entry} (hh : s.entry h = none) (ho : (s.bus e.bus).ownAddress ≠ some e.address) :
    (s.setEntry h (some e)).TargetSound := by
  have kept {k : Handle} {f : Entry} (hf : s.entry k = some f) : (s.setEntry h (some e)).entry k = some f := by
    rw [State.entry_setEntry, if_neg, hf]
    rintro rfl
    rw [hh] at hf
    cases hf
  refine hs.of_entries rfl rfl (fun k f _ hf => ⟨f, kept hf, rfl, rfl⟩) (fun b t ht => ?_) (fun k f hf => ?_) fun i p hp => ?_
  · obtain ⟨f, hf, -⟩ := Option.map_eq_some_iff.mp (hs.homed_queue ht).2
    rw [quarantined_eq_false (kept hf), ← quarantined_eq_false hf]
    exact hs.queues b t ht
  · rw [Option.mem_def, State.entry_setEntry] at hf
    split at hf
    · rw [← Option.some.inj hf]
      exact ho
    · exact hs.apart k f hf
  · obtain ⟨f, hf, hiff⟩ := hs.polls i p hp
    exact ⟨f, kept hf, hiff⟩

theorem targetRemoved {h : Handle} (hr : ∀ t ∈ s.records, t.handle ≠ h) (hp : ∀ i p, s.poll i = some p → p.handle ≠ h) :
    (s.setEntry h none).TargetSound := by
  refine hs.of_entries rfl rfl (fun k f hused hf => ?_) (fun b t ht => ?_) (fun k f hf => ?_) fun i p hi => ?_
  · obtain ⟨t, ht, rfl⟩ := hused
    exact ⟨f, by rw [State.entry_setEntry, if_neg fun h' => hr t ht h'.symm, hf], rfl, rfl⟩
  · have hne := hr t (mem_records.mpr ⟨b, Bus.mem_records.mpr (.inl ht)⟩)
    unfold State.quarantined
    rw [State.entry_setEntry, if_neg fun h' => hne h'.symm]
    exact hs.queues b t ht
  · rw [Option.mem_def, State.entry_setEntry] at hf
    split at hf
    · cases hf
    · exact hs.apart k f hf
  · obtain ⟨f, hf, hiff⟩ := hs.polls i p hi
    exact ⟨f, by rw [Option.mem_def, State.entry_setEntry, if_neg fun h' => hp i p hi h'.symm]; exact hf, hiff⟩

theorem pollSet {v : PollValues} {e : Entry} (he : s.entry v.handle = some e) :
    (s.setPoll v.index (some (newPoll v e))).TargetSound := by
  refine ⟨hs.homed, fun i p hi => ?_, hs.queues, hs.apart, hs.addresses⟩
  rw [Option.mem_def, State.poll_setPoll] at hi
  split at hi
  · rw [← Option.some.inj hi]
    refine ⟨e, he, ?_⟩
    by_cases hq : e.state = .quarantined
    · rw [newPoll_state_of_quarantined v hq]
      exact ⟨fun _ => hq, fun _ => rfl⟩
    · rw [newPoll_state_of_ne v hq]
      exact ⟨fun h => (by cases h), fun h => absurd h hq⟩
  · exact hs.polls i p hi

theorem pollOff {i : PollIndex} (hon : s.poll i ≠ none) : (s.pollOff i).TargetSound := by
  have hhandle (t : Txn) : (if t.ofPoll i then t.orphan else t).handle = t.handle ∧
      (if t.ofPoll i then t.orphan else t).bus = t.bus ∧
      (Work.record (if t.ofPoll i then t.orphan else t)).reads = (Work.record t).reads := by
    split
    · unfold Txn.orphan
      split <;> exact ⟨rfl, rfl, rfl⟩
    · exact ⟨rfl, rfl, rfl⟩
  refine hs.of_records (fun h => by rw [pollOff_frame]; rfl) (fun j p hj => ?_) (fun b => by rw [bus_pollOff hon]; rfl)
    (by rw [pollOff_frame]) (fun b t ht => ?_) (fun b t ht => ?_) fun b t ht => .inl ?_
  · rw [poll_pollOff hon] at hj
    split at hj
    · cases hj
    · exact ⟨p, hj, rfl⟩
  · rw [bus_pollOff hon] at ht
    have hmem : t ∈ (s.bus b).queue := by
      rw [Bus.releasePoll, Bus.dropQueued, Bus.queue, ← List.filter_append] at ht
      exact (List.mem_filter.mp ht).1
    exact ⟨hs.homed_queue hmem, hs.queues b t hmem⟩
  · rw [bus_pollOff hon, releasePoll_engine, Engine.record?_mapRecord] at ht
    obtain ⟨u, hu, rfl⟩ := Option.map_eq_some_iff.mp ht
    obtain ⟨hh, hb, -⟩ := hhandle u
    rw [State.Homed, hh, hb]
    exact hs.homed_record hu
  · rw [bus_pollOff hon, releasePoll_engine] at ht
    obtain ⟨u, hu, rfl⟩ := Engine.mapRecord_eq_driving ht
    obtain ⟨hh, -, hreads⟩ := hhandle u
    exact ⟨u, hu, hh.symm, hreads.symm, by rw [bus_pollOff hon]; rfl⟩

theorem listenSet {v : ListenSettings} (hn : s.entryAt v.bus v.ownAddress = false) :
    (s.setBus v.bus { s.bus v.bus with
      ownAddress := v.ownAddress, broadcastAccept := v.broadcastAccept }).TargetSound := by
  refine ⟨?_, hs.polls, ?_, fun h e he => ?_, fun hlow => ?_⟩
  · exact forall_bus_setBus (R := fun c y => ∀ t ∈ y.records, s.Homed c t) (hs.homed v.bus) hs.homed
  · exact forall_bus_setBus (R := fun c y => ∀ t ∈ y.queue, s.quarantined t.handle = false) (hs.queues v.bus) hs.queues
  · rw [State.bus_setBus]
    split
    · rename_i hb
      intro hc
      have := (State.entryAt_iff s v.bus v.ownAddress).mpr ⟨h, e, he, hb.symm, hc.symm⟩
      rw [hn] at this
      cases this
    · exact hs.apart h e he
  · exact forall_bus_setBus (R := fun c y => ∀ t, y.engine = .driving .address (.record t) → ∀ e, s.entry t.handle = some e →
      y.sending = some (addressByte e.address (Work.record t).reads)) (hs.addresses hlow v.bus) (hs.addresses hlow)

theorem assertReset : s.assertReset.TargetSound := by
  refine ⟨fun b => ?_, hs.polls, fun b => ?_, fun h e he => ?_, fun hlow => by cases hlow⟩
  · rw [bus_assertReset]
    exact hs.homed b
  · rw [bus_assertReset]
    exact hs.queues b
  · rw [bus_assertReset]
    exact hs.apart h e he

end State.TargetSound

/-! ### The law -/

namespace TargetLaw
variable {k l : Hand} {s u : State}

theorem of_sound (hs : s.TargetSound) (b : BusId) (p : Option Handle) (g : Bool) : TargetLaw ⟨b, [], p, g⟩ s :=
  ⟨hs, fun t ht => by cases ht⟩

/-- The hand as it was, or less of it. -/
theorem onward (hs : TargetLaw k s) (hu : u.TargetSound)
    (he : ∀ h, (u.entry h).map Entry.bus = (s.entry h).map Entry.bus) (hb : l.bus = k.bus)
    (hk : ∀ t ∈ l.records, t ∈ k.records) : TargetLaw l u :=
  ⟨hu, fun t ht => hb ▸ homed_congr (he _) (hs.hand t (hk t ht))⟩

theorem leave {b : BusId} {x : Bus} (hx : (s.bus b).Left x) (hs : s.TargetSound) (p : Option Handle) (g : Bool) :
    TargetLaw ⟨b, (s.bus b).engine.record?.toList, p, g⟩ (s.setBus b x) := by
  refine ⟨hs.setBus hx.ownAddress (fun t ht => ?_) (fun t ht => ?_) fun t ht => ?_, fun t ht => ?_⟩
  · rw [Bus.queue, hx.urgent, hx.routine] at ht
    exact ⟨hs.homed_queue ht, hs.queues b t ht⟩
  · rw [hx.record] at ht
    cases ht
  · have := hx.record
    rw [ht] at this
    cases this
  · exact hs.homed_record (Option.mem_toList.mp ht)

theorem entry_conclude (s : State) (t : Txn) (o : TxnOutcome) (h : Handle) : (s.conclude t o).entry h = s.entry h := by
  obtain ⟨st, wl, ps, hc⟩ := conclude_frame s t o
  rw [hc]
  rfl

theorem place {b : BusId} {t t' : Txn} {ts : List Txn} {p : Option Handle} {g : Bool} (pl : Placement)
    (hc : t'.core = t.core) (hq : s.quarantined t'.handle = false) (hs : TargetLaw ⟨b, t :: ts, p, g⟩ s) :
    TargetLaw ⟨b, ts, p, g⟩ (s.setBus t'.bus ((s.bus t'.bus).place t' pl)) := by
  have ht : s.Homed b t' := homed_of_core hc (hs.hand t (List.mem_cons_self ..))
  obtain ⟨n, hj⟩ := joined_place (s.bus t'.bus) t' pl
  refine hs.onward (hs.sound.joined hj ⟨rfl, ?_⟩ hq) (fun h => rfl) rfl fun u hu => List.mem_cons_of_mem _ hu
  rw [ht.1]
  exact ht.2

theorem joinTail {t : Txn} {e : Entry} (hs : s.TargetSound) (he : s.entry t.handle = some e) (hq : e.state ≠ .quarantined)
    (hb : t.bus = e.bus) : TargetLaw ⟨e.bus, [], none, true⟩ (s.setBus e.bus ((s.bus e.bus).joinTail t)) :=
  of_sound (hs.joined (joined_joinTail _ t) ⟨hb, by rw [he]; rfl⟩ ((quarantined_eq_false he).mpr hq)) _ _ _

theorem bus_setEntry {h k : Handle} {e f : Entry} (he : s.entry h = some e) (hf : f.bus = e.bus) :
    ((s.setEntry h (some f)).entry k).map Entry.bus = (s.entry k).map Entry.bus := by
  rw [State.entry_setEntry]
  split
  · rename_i hk
    rw [← hk, he]
    exact congrArg some hf
  · rfl

end TargetLaw

theorem recordLaw_targets : RecordLaw State.TargetSound TargetLaw where
  device s := by
    rw [State.targetSound_iff, State.targetSound_iff]
    exact Iff.rfl
  empty b s := ⟨TargetLaw.sound, fun hs => .of_sound hs b none false⟩
  quiet h hs := hs.onward (hs.sound.quiet h) (fun j => bus_of_standing (standing_of_core (h.entry j))) rfl fun _ ht => ht
  leave hx hs := .leave hx hs _ _
  conclude {b t t' ts p g s} o _ hs := hs.onward (hs.sound.conclude t' o)
    (fun h => by rw [TargetLaw.entry_conclude]) rfl fun _ hu => List.mem_cons_of_mem _ hu
  free hs := hs.onward hs.sound (fun _ => rfl) rfl fun _ hu => List.mem_cons_of_mem _ hu
  place pl hc hq _ _ hs := hs.place pl hc hq
  giveUpProbe {b ts h g s} _ hs := by
    refine hs.onward (hs.sound.giveUpProbe b h) (fun k => ?_) rfl fun _ hu => hu
    rcases giveUpProbe_cases s b h with hk | ⟨e, he, -, -, hk⟩
    · rw [hk]
    · rw [hk]
      exact TargetLaw.bus_setEntry he rfl
  endProbe _ hs := hs.onward hs.sound (fun _ => rfl) rfl fun _ hu => hu
  select {b g s} hs := hs.sound.select b
  filed {s t e} he hq _ _ _ hb hs :=
    TargetLaw.joinTail (s := { s with nextTicket := ticketAfter s.issueTicket })
      ⟨hs.homed, hs.polls, hs.queues, hs.apart, hs.addresses⟩ he hq hb
  called {s i p t e} hp hactive he _ _ _ hh hb hs := by
    obtain ⟨f, hf, hiff⟩ := hs.polls i p hp
    obtain rfl : f = e := Option.some.inj (hf.symm.trans he)
    exact TargetLaw.joinTail hs (hh ▸ he) (fun hq => hactive (hiff.mpr hq)) hb
  requeue {s b} p hs := by
    refine .of_sound (hs.requeued (x := (s.bus b).mapQueued p fun t => { t with notBefore := none }) rfl rfl rfl
      fun t ht => ?_) _ _ _
    rw [Bus.mapQueued, Bus.queue, ← List.map_append] at ht
    obtain ⟨u, hu, rfl⟩ := List.mem_map.mp ht
    refine ⟨u, hu, ?_⟩
    split <;> rfl
  probeDue {s h e r} he _ hs := .of_sound (hs.restand (f := { e with probe := .due }) he rfl) _ _ _
  takeOut {s b} p hs := by
    refine ⟨hs.requeued rfl rfl rfl fun t ht => ?_, fun t ht => hs.homed_queue (List.mem_filter.mp ht).1⟩
    rw [Bus.dropQueued, Bus.queue, ← List.filter_append] at ht
    exact ⟨t, (List.mem_filter.mp ht).1, rfl⟩
  unissued _ he _ hs := hs.restand he rfl
  release he hs := hs.release he
  markOut n he _ hclear hs := hs.markOut n he hclear
  refill _ hs := hs.results _ _
  pollSet _ he _ hs := hs.pollSet he
  pollOff hon hs := hs.pollOff hon
  targetAdded hh _ ho _ _ hs := hs.targetAdded hh ho
  targetRemoved hr hp hs := hs.targetRemoved hr hp
  listenSet hn hs := hs.listenSet hn
  blank s hs := s.targetSound_iff.mpr ⟨hs.recordsAtHome, hs.targetsUsed, hs.pollsFollowTargets, hs.queuesOutOfQuarantine,
    hs.ownAddressesApart, hs.addressesSent⟩
  assertReset _ hs := hs.assertReset

/-- Settles O58: each move leaves every record, queued, active or on its way, at home with its entry in use. -/
theorem stepKeepsTheTargetsInUse : Obligations.StepKeepsTheTargetsInUse := by
  intro s t hs h
  rw [← State.targetSound_iff] at hs ⊢
  exact recordLaw_targets.deviceLaw.step hs h

end Sys2Proof.Machine
end

section
/-! SUPPORT. The laws of the queues through every move. -/

namespace Sys2Proof.Machine

/-- The records of bus `b` stand at home, each in the sub-list of its class, with room for `extra` more (R3, R7). -/
structure Bus.Orderly (b : BusId) (extra : Nat) (x : Bus) : Prop where
  home : ∀ t ∈ x.records, t.bus = b
  urgent : ∀ t ∈ x.urgent, t.cls = .urgent
  routine : ∀ t ∈ x.routine, t.cls = .routine
  fits : x.records.length + extra ≤ 16

/-- Nothing eligible waits on bus `b` (R12). -/
structure State.Settled (s : State) (b : BusId) : Prop where
  probes : ∀ h e, s.entry h = some e → e.bus = b → e.probe ≠ .due
  records : ∀ t ∈ (s.bus b).queue, t.notBefore.isSome = true

/-- The laws of the queues between happenings (R3, R7, R12). -/
structure State.QueueSound (s : State) : Prop where
  bus : ∀ b, (s.bus b).Orderly b 0
  settled : ∀ b, (s.bus b).engine = .idle none → s.Settled b

theorem State.queueSound_iff (s : State) :
    s.QueueSound ↔ s.RecordsAtHome ∧ s.ClassesKept ∧ s.QueuesFit ∧ s.IdleSelected := by
  constructor
  · intro h
    exact ⟨fun b => (h.bus b).home, fun b => ⟨(h.bus b).urgent, (h.bus b).routine⟩, fun b => (h.bus b).fits,
      fun b hi => ⟨(dueProbe_eq_none_iff s b).mpr (h.settled b hi).probes, (h.settled b hi).records⟩⟩
  · rintro ⟨hh, hc, hf, hi⟩
    exact ⟨fun b => ⟨hh b, (hc b).1, (hc b).2, hf b⟩,
      fun b he => ⟨(dueProbe_eq_none_iff s b).mp (hi b he).1, (hi b he).2⟩⟩

/-- The places kept on bus `b` for the records in hand. -/
def Hand.places (k : Hand) (b : BusId) : Nat := if b = k.bus then k.records.length else 0

/-- The laws of the queues, places kept for the records in hand, selection on its bus still to come or not. -/
structure QueueLaw (k : Hand) (s : State) : Prop where
  bus : ∀ b, (s.bus b).Orderly b (k.places b)
  hand : ∀ t ∈ k.records, t.bus = k.bus
  settled : ∀ b, (s.bus b).engine = .idle none → (b = k.bus ∧ k.selects = true) ∨ s.Settled b

namespace Bus.Orderly
variable {b : BusId} {n m : Nat} {x y : Bus}

theorem mono (h : x.Orderly b n) (hm : m ≤ n) : x.Orderly b m :=
  ⟨h.home, h.urgent, h.routine, Nat.le_trans (Nat.add_le_add_left hm _) h.fits⟩

theorem length_records (x : Bus) : x.records.length = x.queue.length + x.engine.record?.toList.length :=
  List.length_append

/-- The same queue, and an engine with a record of the same bus. -/
theorem sameBus (h : x.Orderly b n) (hu : y.urgent = x.urgent) (hr : y.routine = x.routine)
    (he : y.engine.record?.map Txn.bus = x.engine.record?.map Txn.bus) : y.Orderly b n := by
  have hq : y.queue = x.queue := by rw [Bus.queue, Bus.queue, hu, hr]
  refine ⟨fun t ht => ?_, hu ▸ h.urgent, hr ▸ h.routine, ?_⟩
  · rcases Bus.mem_records.mp ht with ht | ht
    · exact h.home t (Bus.mem_records.mpr (.inl (hq ▸ ht)))
    · obtain ⟨u, hu, hc⟩ := of_map_core he ht
      exact hc.trans (h.home u (Bus.mem_records.mpr (.inr hu)))
  · have hlen : y.engine.record?.toList.length = x.engine.record?.toList.length := by
      have := congrArg Option.isSome he
      rw [Option.isSome_map, Option.isSome_map] at this
      rw [Option.length_toList, Option.length_toList, this]
    have := h.fits
    rw [length_records] at this ⊢
    rw [hq, hlen]
    exact this

theorem same (h : x.Orderly b n) (hu : y.urgent = x.urgent) (hr : y.routine = x.routine)
    (he : y.engine.record?.map Txn.core = x.engine.record?.map Txn.core) : y.Orderly b n := by
  refine h.sameBus hu hr ?_
  have := congrArg (Option.map fun c : Origin × Handle × BusId => c.2.2) he
  rwa [Option.map_map, Option.map_map] at this

/-- A record of the bus joins its queue. -/
theorem joined {t : Txn} (hj : x.Joined y t) (ht : t.bus = b) (h : x.Orderly b (n + 1)) : y.Orderly b n := by
  refine ⟨fun u hu => ?_, fun u hu => ?_, fun u hu => ?_, ?_⟩
  · rcases List.mem_cons.mp (hj.records.mem_iff.mp hu) with rfl | hu
    · exact ht
    · exact h.home u hu
  · rcases hj.lists with ⟨hc, hl, -⟩ | ⟨-, -, hl⟩
    · rcases List.mem_cons.mp (hl.mem_iff.mp hu) with rfl | hu
      · exact hc
      · exact h.urgent u hu
    · exact h.urgent u (hl ▸ hu)
  · rcases hj.lists with ⟨-, -, hl⟩ | ⟨hc, hl, -⟩
    · exact h.routine u (hl ▸ hu)
    · rcases List.mem_cons.mp (hl.mem_iff.mp hu) with rfl | hu
      · exact hc
      · exact h.routine u hu
  · have := h.fits
    rw [hj.records.length_eq, List.length_cons]
    omega

/-- Queued records leave, the engine's record standing. -/
theorem filtered (p : Txn → Bool) (h : x.Orderly b n) : (x.dropQueued p).Orderly b (n + (x.queue.filter p).length) := by
  have hq : (x.dropQueued p).queue = x.queue.filter fun t => !p t := by
    rw [Bus.dropQueued, Bus.queue, Bus.queue, List.filter_append]
  refine ⟨fun t ht => ?_, fun t ht => h.urgent t (List.mem_filter.mp ht).1, fun t ht => h.routine t (List.mem_filter.mp ht).1,
    ?_⟩
  · refine h.home t (Bus.mem_records.mpr ((Bus.mem_records.mp ht).imp_left fun ht => ?_))
    rw [hq] at ht
    exact (List.mem_filter.mp ht).1
  · have := h.fits
    have hsplit := List.length_eq_length_filter_add (l := x.queue) p
    rw [length_records] at this ⊢
    rw [hq]
    have hengine : (x.dropQueued p).engine = x.engine := rfl
    rw [hengine]
    omega

/-- The record chosen goes from the queue to an engine that held none. -/
theorem chosen {t : Txn} {before after : List Txn} {y : Bus} (h : x.Orderly b n) (hi : x.engine = .idle none)
    (hy : (x.urgent = before ++ t :: after ∧ y = { x with urgent := before ++ after }) ∨
      (x.routine = before ++ t :: after ∧ y = { x with routine := before ++ after })) :
    ({ y with engine := .idle (some (.record { t with progress := Progress.zero })) } : Bus).Orderly b n := by
  have hnone : x.engine.record? = none := by rw [hi]; rfl
  have hperm : x.queue.Perm (t :: y.queue) := by
    rcases hy with ⟨hl, rfl⟩ | ⟨hl, rfl⟩
    · rw [Bus.queue, hl]
      exact List.perm_middle.append_right _
    · rw [Bus.queue, hl]
      exact (List.perm_middle.append_left _).trans List.perm_middle
  have hurgent : ∀ u ∈ y.urgent, u ∈ x.urgent := by
    rcases hy with ⟨hl, rfl⟩ | ⟨-, rfl⟩
    · rw [hl]
      exact fun u hu => (List.sublist_cons_self t after).append_left before |>.subset hu
    · exact fun u hu => hu
  have hroutine : ∀ u ∈ y.routine, u ∈ x.routine := by
    rcases hy with ⟨-, rfl⟩ | ⟨hl, rfl⟩
    · exact fun u hu => hu
    · rw [hl]
      exact fun u hu => (List.sublist_cons_self t after).append_left before |>.subset hu
  have hhome (u : Txn) (hu : u ∈ x.queue) : u.bus = b := h.home u (Bus.mem_records.mpr (.inl hu))
  refine ⟨fun u hu => ?_, fun u hu => h.urgent u (hurgent u hu), fun u hu => h.routine u (hroutine u hu), ?_⟩
  · rcases Bus.mem_records.mp hu with hu | hu
    · exact hhome u (hperm.mem_iff.mpr (List.mem_cons_of_mem _ hu))
    · rw [← Option.some.inj hu]
      exact hhome t (hperm.mem_iff.mpr (List.mem_cons_self ..))
  · have := h.fits
    rw [length_records, hperm.length_eq, hnone] at this
    rw [length_records]
    exact this

end Bus.Orderly

theorem State.Settled.mono {s u : State} {b : BusId} (h : s.Settled b)
    (hd : ∀ k f, u.entry k = some f → f.probe = .due → ∃ e, s.entry k = some e ∧ e.bus = f.bus ∧ e.probe = .due)
    (hq : ∀ t ∈ (u.bus b).queue, t ∈ (s.bus b).queue) : u.Settled b where
  probes k f hf hb hp := by
    obtain ⟨e, he, heb, hep⟩ := hd k f hf hp
    exact h.probes k e he (heb.trans hb) hep
  records t ht := h.records t (hq t ht)

theorem chooseRecord_eq_none {x : Bus} (h : x.chooseRecord = none) : ∀ t ∈ x.queue, t.notBefore.isSome = true := by
  have hboth : takeQueued x.urgent = none ∧ takeQueued x.routine = none := by
    unfold Bus.chooseRecord at h
    dsimp only at h
    split at h
    · obtain ⟨hr, hu⟩ := Option.or_eq_none_iff.mp h
      exact ⟨Option.map_eq_none_iff.mp hu, Option.map_eq_none_iff.mp hr⟩
    · obtain ⟨hu, hr⟩ := Option.or_eq_none_iff.mp h
      exact ⟨Option.map_eq_none_iff.mp hu, Option.map_eq_none_iff.mp hr⟩
  intro t ht
  rcases List.mem_append.mp ht with ht | ht
  · exact takeQueued_none.mp hboth.1 t ht
  · exact takeQueued_none.mp hboth.2 t ht

end Sys2Proof.Machine
end

section
/-! SUPPORT. The laws of the queues are a law of the device. -/

namespace Sys2Proof.Machine

/-- Every due probe of `u` was due in `s`, on the same bus. -/
def DueBefore (s u : State) : Prop :=
  ∀ k f, u.entry k = some f → f.probe = .due → ∃ e, s.entry k = some e ∧ e.bus = f.bus ∧ e.probe = .due

theorem dueBefore_of_entry {s u : State} (h : ∀ k, u.entry k = s.entry k) : DueBefore s u :=
  fun k f hf hp => ⟨f, (h k).symm.trans hf, rfl, hp⟩

theorem dueBefore_setEntry {s : State} {h : Handle} {o : Option Entry} (ho : ∀ f, o = some f → f.probe ≠ .due) :
    DueBefore s (s.setEntry h o) := by
  intro k f hf hp
  rw [State.entry_setEntry] at hf
  split at hf
  · exact absurd hp (ho f hf)
  · exact ⟨f, hf, rfl, hp⟩

namespace State.QueueSound
variable {s u : State} (hs : s.QueueSound)
include hs

theorem law (b : BusId) (p : Option Handle) (g : Bool) : QueueLaw ⟨b, [], p, g⟩ s where
  bus c := by
    unfold Hand.places
    split <;> exact hs.bus c
  hand t ht := by cases ht
  settled c hi := .inr (hs.settled c hi)

/-- A change of the directory that makes no probe due, and of the polls and results. -/
theorem entries (hb : u.buses = s.buses) (hd : DueBefore s u) : u.QueueSound := by
  have hbus (b : BusId) : u.bus b = s.bus b := by rw [State.bus, State.bus, hb]
  refine ⟨fun b => hbus b ▸ hs.bus b, fun b hi => (hs.settled b (hbus b ▸ hi)).mono hd fun t ht => hbus b ▸ ht⟩

end State.QueueSound

namespace QueueLaw
variable {k l : Hand} {s u : State}

theorem sound {b : BusId} {p : Option Handle} (hs : QueueLaw ⟨b, [], p, false⟩ s) : s.QueueSound where
  bus c := (hs.bus c).mono (Nat.zero_le _)
  settled c hi := (hs.settled c hi).resolve_left fun h => by cases h.2

theorem places_mono {b : BusId} (hb : l.bus = k.bus) (hr : l.records.length ≤ k.records.length) :
    l.places b ≤ k.places b := by
  unfold Hand.places
  rw [hb]
  split
  · exact hr
  · exact Nat.le_refl 0

/-- A change of other parts, with the hand as it was, or less of it. -/
theorem onward (hs : QueueLaw k s) (hb : u.buses = s.buses) (hd : DueBefore s u) (hbus : l.bus = k.bus)
    (hr : l.records.Sublist k.records) (hg : k.selects = true → l.selects = true) : QueueLaw l u := by
  have hu (b : BusId) : u.bus b = s.bus b := by rw [State.bus, State.bus, hb]
  refine ⟨fun b => ?_, fun t ht => (hs.hand t (hr.subset ht)).trans hbus.symm, fun b hi => ?_⟩
  · rw [hu]
    exact (hs.bus b).mono (places_mono hbus hr.length_le)
  · exact (hs.settled b (hu b ▸ hi)).imp (fun h => ⟨h.1.trans hbus.symm, hg h.2⟩)
      fun h => h.mono hd fun t ht => hu b ▸ ht

theorem quiet (h : Quiet s u) (hs : QueueLaw k s) : QueueLaw k u := by
  refine ⟨fun b => (hs.bus b).same (h.urgent b) (h.routine b) (h.record b), hs.hand, fun b hi =>
    (hs.settled b (h.idle b hi)).imp_right fun hset => hset.mono (fun j f hf hp => ?_) fun t ht => ?_⟩
  · obtain ⟨e, he, hc⟩ := of_map_core (h.entry j) hf
    obtain ⟨⟨hb, -⟩, -, -, hd, -⟩ := Entry.core_eq.mp hc
    exact ⟨e, he, hb.symm, hd.mp hp⟩
  · rwa [Bus.queue, h.urgent, h.routine] at ht

/-- A bus written: its records in order, its engine waiting for selection only where one is to come. -/
theorem setBus {b : BusId} {x : Bus} (hs : ∀ c, b ≠ c → (s.bus c).Orderly c 0)
    (hset : ∀ c, b ≠ c → (s.bus c).engine = .idle none → s.Settled c) (hx : x.Orderly b l.records.length)
    (hb : l.bus = b) (hhand : ∀ t ∈ l.records, t.bus = b)
    (hi : x.engine = .idle none → l.selects = true ∨
      ((∀ h e, s.entry h = some e → e.bus = b → e.probe ≠ .due) ∧ ∀ t ∈ x.queue, t.notBefore.isSome = true)) :
    QueueLaw l (s.setBus b x) where
  bus c := by
    unfold Hand.places
    by_cases hc : b = c
    · subst hc
      rwa [State.bus_setBus_same, if_pos hb.symm]
    · rw [State.bus_setBus_ne s x hc, if_neg fun h => hc (hb.symm.trans h.symm)]
      exact hs c hc
  hand t ht := (hhand t ht).trans hb.symm
  settled c hidle := by
    by_cases hc : b = c
    · subst hc
      rw [State.bus_setBus_same] at hidle
      refine (hi hidle).imp (fun h => ⟨hb.symm, h⟩) fun h => ⟨h.1, fun t ht => h.2 t ?_⟩
      rwa [State.bus_setBus_same] at ht
    · rw [State.bus_setBus_ne s x hc] at hidle
      refine .inr ((hset c hc hidle).mono (dueBefore_of_entry fun _ => rfl) fun t ht => ?_)
      rwa [State.bus_setBus_ne s x hc] at ht

/-- The other buses of a hand's bus. -/
theorem others {b : BusId} (hs : QueueLaw k s) (hb : k.bus = b) : (∀ c, b ≠ c → (s.bus c).Orderly c 0) ∧
    (∀ c, b ≠ c → (s.bus c).engine = .idle none → s.Settled c) :=
  ⟨fun c _ => (hs.bus c).mono (Nat.zero_le _),
    fun c hc hi => (hs.settled c hi).resolve_left fun h => hc (hb.symm.trans h.1.symm)⟩

theorem bus_hand {b : BusId} (hs : QueueLaw k s) (hb : k.bus = b) : (s.bus b).Orderly b k.records.length := by
  have := hs.bus b
  rwa [Hand.places, if_pos hb.symm] at this

theorem leave {b : BusId} {x : Bus} (hx : (s.bus b).Left x) (hs : s.QueueSound) (p : Option Handle) :
    QueueLaw ⟨b, (s.bus b).engine.record?.toList, p, decide (x.engine = .idle none)⟩ (s.setBus b x) := by
  have hq : x.queue = (s.bus b).queue := by rw [Bus.queue, Bus.queue, hx.urgent, hx.routine]
  refine setBus (fun c _ => hs.bus c) (fun c _ hi => hs.settled c hi) ⟨fun t ht => ?_, ?_, ?_, ?_⟩ rfl
    (fun t ht => ?_) fun hi => .inl (decide_eq_true hi)
  · rw [Bus.mem_records, hx.record, hq] at ht
    exact (hs.bus b).home t (Bus.mem_records.mpr (.inl (ht.resolve_right fun h => by cases h)))
  · exact hx.urgent ▸ (hs.bus b).urgent
  · exact hx.routine ▸ (hs.bus b).routine
  · have := (hs.bus b).fits
    rw [Bus.Orderly.length_records] at this ⊢
    rw [hq, hx.record]
    exact this
  · exact (hs.bus b).home t (Bus.mem_records.mpr (.inr (Option.mem_toList.mp ht)))

theorem conclude (hs : QueueLaw k s) (t : Txn) (o : TxnOutcome) (hbus : l.bus = k.bus)
    (hr : l.records.Sublist k.records) (hg : l.selects = k.selects) : QueueLaw l (s.conclude t o) := by
  obtain ⟨st, wl, ps, h⟩ := conclude_frame s t o
  rw [h]
  exact hs.onward rfl (dueBefore_of_entry fun _ => rfl) hbus hr fun h => hg.trans h

theorem place {b : BusId} {t t' : Txn} {ts : List Txn} {p : Option Handle} {g : Bool} (pl : Placement)
    (hc : t'.core = t.core) (hg : (s.bus b).engine = .idle none → g = true) (hs : QueueLaw ⟨b, t :: ts, p, g⟩ s) :
    QueueLaw ⟨b, ts, p, g⟩ (s.setBus t'.bus ((s.bus t'.bus).place t' pl)) := by
  have ht : t'.bus = b := (Txn.core_eq.mp hc).2.2.trans (hs.hand t (List.mem_cons_self ..))
  rw [ht]
  obtain ⟨n, hj⟩ := joined_place (s.bus b) t' pl
  obtain ⟨hbus, hset⟩ := hs.others (b := b) rfl
  exact setBus hbus hset ((hs.bus_hand (b := b) rfl).joined hj ht) rfl (fun u hu => hs.hand u (List.mem_cons_of_mem _ hu))
    fun hi => .inl (hg (hj.engine.symm.trans hi))

theorem joinTail {b : BusId} {t : Txn} (hs : s.QueueSound) (ht : t.bus = b) (hroom : (s.bus b).records.length < 16) :
    QueueLaw ⟨b, [], none, true⟩ (s.setBus b ((s.bus b).joinTail t)) := by
  have hx := hs.bus b
  exact setBus (fun c _ => hs.bus c) (fun c _ hi => hs.settled c hi)
    (Bus.Orderly.joined (joined_joinTail _ t) ht ⟨hx.home, hx.urgent, hx.routine, hroom⟩) rfl (fun u hu => by cases hu)
    fun _ => .inl rfl

/-- A probe becomes due on the hand's bus, where selection is to come or the engine is not waiting for it. -/
theorem due {h : Handle} {f : Entry} (hs : QueueLaw k s) (hf : f.bus = k.bus) (hb : l.bus = k.bus)
    (hr : l.records = k.records) (hg : (s.bus k.bus).engine = .idle none → l.selects = true) :
    QueueLaw l (s.setEntry h (some f)) where
  bus b := by
    rw [Hand.places, hb, hr]
    exact hs.bus b
  hand t ht := by
    rw [hr] at ht
    rw [hb]
    exact hs.hand t ht
  settled b hi := by
    by_cases hc : b = k.bus
    · exact .inl ⟨hc.trans hb.symm, hg (hc ▸ hi)⟩
    · have hset := (hs.settled b hi).resolve_left fun h => hc h.1
      refine .inr ⟨fun j e' he' heb => ?_, hset.records⟩
      rw [State.entry_setEntry] at he'
      split at he'
      · rw [← Option.some.inj he', hf] at heb
        exact absurd heb.symm hc
      · exact hset.probes j e' he' heb

theorem giveUpProbe {b : BusId} {h : Handle} {ts : List Txn} {g : Bool} (hs : QueueLaw ⟨b, ts, some h, g⟩ s)
    (hg : (s.bus b).engine = .idle none → g = true) : QueueLaw ⟨b, ts, none, g⟩ (s.giveUpProbe b h) := by
  rcases giveUpProbe_cases s b h with hk | ⟨e, -, -, hb, hk⟩
  · rw [hk]
    exact hs.onward rfl (dueBefore_of_entry fun _ => rfl) rfl (.refl _) id
  · rw [hk]
    exact hs.due (f := { e with probe := .due }) hb rfl rfl hg

/-- Selection: afterwards nothing eligible waits before an IDLE engine (R12). -/
theorem select {b : BusId} {g : Bool} (hs : QueueLaw ⟨b, [], none, g⟩ s) : (s.select b).QueueSound := by
  obtain ⟨hbus, hset⟩ := hs.others (b := b) rfl
  have hx := hs.bus_hand (b := b) rfl
  by_cases hi : (s.bus b).engine = .idle none
  · cases hd : s.dueProbe b with
    | some h =>
      obtain ⟨⟨e, he, -, -⟩, -⟩ := (dueProbe_eq_some_iff s b h).mp hd
      rw [select_probe hi he hd]
      have hissued : DueBefore s (s.setEntry h (some { e with probe := .issued })) :=
        dueBefore_setEntry fun f hf => by rw [← Option.some.inj hf]; simp
      refine (setBus (l := ⟨b, [], none, false⟩) (s := s.setEntry h (some { e with probe := .issued })) hbus
        (fun c hc hci => (hset c hc hci).mono hissued fun t ht => ht) ?_ rfl (fun t ht => by cases ht)
        fun h => by cases h).sound
      exact hx.same rfl rfl (by rw [hi]; rfl)
    | none =>
      cases hc : (s.bus b).chooseRecord with
      | none =>
        rw [select_nothing hd hc]
        refine ⟨fun c => (hs.bus c).mono (Nat.zero_le _), fun c hci => ?_⟩
        by_cases h : b = c
        · subst h
          exact ⟨(dueProbe_eq_none_iff s b).mp hd, chooseRecord_eq_none hc⟩
        · exact hset c h hci
      | some r =>
        obtain ⟨t, x⟩ := r
        rw [select_record hi hd hc]
        refine (setBus (l := ⟨b, [], none, false⟩) hbus hset ?_ rfl (fun t ht => by cases ht) fun h => by cases h).sound
        obtain ⟨-, before, after, hx'⟩ := chooseRecord_some hc
        exact hx.chosen hi hx'
  · rw [select_not_idle hi]
    refine ⟨fun c => (hs.bus c).mono (Nat.zero_le _), fun c hci => ?_⟩
    by_cases h : b = c
    · subst h
      exact absurd hci hi
    · exact hset c h hci

theorem takeOut {b : BusId} (p : Txn → Bool) (hs : s.QueueSound) :
    QueueLaw ⟨b, (s.bus b).queue.filter p, none, false⟩ (s.setBus b ((s.bus b).dropQueued p)) := by
  have hx := (hs.bus b).filtered p
  rw [Nat.zero_add] at hx
  refine setBus (fun c _ => hs.bus c) (fun c _ hi => hs.settled c hi) hx rfl (fun t ht => ?_) fun hi => .inr ?_
  · exact (hs.bus b).home t (Bus.mem_records.mpr (.inl (List.mem_filter.mp ht).1))
  · refine ⟨(hs.settled b hi).probes, fun t ht => (hs.settled b hi).records t ?_⟩
    rw [Bus.dropQueued, Bus.queue, ← List.filter_append] at ht
    exact (List.mem_filter.mp ht).1

theorem requeue {b : BusId} (p : Txn → Bool) (f : Txn → Txn) (hf : ∀ t, (f t).bus = t.bus ∧ (f t).cls = t.cls)
    (hs : s.QueueSound) : QueueLaw ⟨b, [], none, true⟩ (s.setBus b ((s.bus b).mapQueued p f)) := by
  have hx := hs.bus b
  have hkeeps (t : Txn) : (if p t then f t else t).bus = t.bus ∧ (if p t then f t else t).cls = t.cls := by
    split
    · exact hf t
    · exact ⟨rfl, rfl⟩
  have hq : ((s.bus b).mapQueued p f).queue = (s.bus b).queue.map fun t => if p t then f t else t := by
    rw [Bus.mapQueued, Bus.queue, Bus.queue, List.map_append]
  refine setBus (fun c _ => hs.bus c) (fun c _ hi => hs.settled c hi) ⟨fun t ht => ?_, fun t ht => ?_, fun t ht => ?_, ?_⟩
    rfl (fun u hu => by cases hu) fun _ => .inl rfl
  · rcases Bus.mem_records.mp ht with ht | ht
    · rw [hq] at ht
      obtain ⟨u, hu, rfl⟩ := List.mem_map.mp ht
      exact (hkeeps u).1.trans (hx.home u (Bus.mem_records.mpr (.inl hu)))
    · exact hx.home t (Bus.mem_records.mpr (.inr ht))
  · obtain ⟨u, hu, rfl⟩ := List.mem_map.mp ht
    exact (hkeeps u).2.trans (hx.urgent u hu)
  · obtain ⟨u, hu, rfl⟩ := List.mem_map.mp ht
    exact (hkeeps u).2.trans (hx.routine u hu)
  · have := hx.fits
    rw [Bus.Orderly.length_records] at this ⊢
    rw [hq, List.length_map]
    exact this

end QueueLaw

namespace State.QueueSound
variable {s : State} (hs : s.QueueSound)
include hs

theorem pollOff {i : PollIndex} (hon : s.poll i ≠ none) : (s.pollOff i).QueueSound := by
  have hdrop (b : BusId) := ((hs.bus b).filtered fun t => t.ofPoll i).mono (Nat.zero_le _)
  refine ⟨fun b => ?_, fun b hi => ?_⟩
  · rw [bus_pollOff hon]
    have hrec : ((s.bus b).releasePoll i).engine.record?.map (fun t => t.bus) =
        (s.bus b).engine.record?.map fun t => t.bus := by
      rw [releasePoll_engine, Engine.record?_mapRecord, Option.map_map]
      refine Option.map_congr fun t _ => ?_
      show (if t.ofPoll i then t.orphan else t).bus = t.bus
      split
      · unfold Txn.orphan
        split <;> rfl
      · rfl
    exact (hdrop b).sameBus rfl rfl hrec
  · rw [bus_pollOff hon, releasePoll_engine] at hi
    refine (hs.settled b (Engine.mapRecord_eq_idle hi)).mono (dueBefore_of_entry fun k => ?_) fun t ht => ?_
    · rw [pollOff_frame]
      rfl
    · rw [bus_pollOff hon, Bus.releasePoll, Bus.dropQueued, Bus.queue, ← List.filter_append] at ht
      exact (List.mem_filter.mp ht).1

end State.QueueSound

theorem recordLaw_queues : RecordLaw State.QueueSound QueueLaw where
  device s := by
    rw [State.queueSound_iff, State.queueSound_iff]
    exact Iff.rfl
  empty b s := ⟨QueueLaw.sound, fun hs => hs.law b none false⟩
  quiet h hs := hs.quiet h
  leave hx hs := .leave hx hs _
  conclude o _ hs := hs.conclude _ o rfl (List.sublist_cons_self ..) rfl
  free hs := hs.onward rfl (dueBefore_of_entry fun _ => rfl) rfl (List.sublist_cons_self ..) id
  place pl hc _ _ hg hs := hs.place pl hc hg
  giveUpProbe hg hs := hs.giveUpProbe hg
  endProbe _ hs := hs.onward rfl (dueBefore_of_entry fun _ => rfl) rfl (.refl _) id
  select hs := hs.select
  filed {s t e} _ _ hroom _ _ hb hs :=
    QueueLaw.joinTail (s := { s with nextTicket := ticketAfter s.issueTicket })
      (hs.entries rfl (dueBefore_of_entry fun _ => rfl)) hb hroom
  called _ _ _ _ hroom _ _ hb hs := QueueLaw.joinTail hs hb hroom
  requeue p hs := QueueLaw.requeue p _ (fun _ => ⟨rfl, rfl⟩) hs
  probeDue {s h e r} _ _ hs := (hs.law e.bus none true).due rfl rfl rfl fun _ => rfl
  takeOut p hs := QueueLaw.takeOut p hs
  unissued _ _ _ hs := hs.entries rfl (dueBefore_setEntry fun f hf => by rw [← Option.some.inj hf]; simp)
  release {s h e} _ hs := hs.entries rfl
    (dueBefore_setEntry (o := some e.back) fun f hf => by rw [← Option.some.inj hf]; simp [Entry.back])
  markOut {s h e} n _ _ _ hs := hs.entries rfl
    (dueBefore_setEntry (o := some (e.out n)) fun f hf => by rw [← Option.some.inj hf]; simp [Entry.out])
  refill _ hs := hs.entries rfl (dueBefore_of_entry fun _ => rfl)
  pollSet _ _ _ hs := hs.entries rfl (dueBefore_of_entry fun _ => rfl)
  pollOff hon hs := hs.pollOff hon
  targetAdded _ _ _ _ hp hs := hs.entries rfl
    (dueBefore_setEntry fun f hf => by rw [← Option.some.inj hf, hp]; simp)
  targetRemoved _ _ hs := hs.entries rfl (dueBefore_setEntry fun f hf => by cases hf)
  listenSet {s v} _ hs := (QueueLaw.setBus (l := ⟨v.bus, [], none, false⟩) (x := { s.bus v.bus with
    ownAddress := v.ownAddress, broadcastAccept := v.broadcastAccept }) (fun c _ => hs.bus c)
    (fun c _ hi => hs.settled c hi) ((hs.bus v.bus).same rfl rfl rfl) rfl (fun t ht => by cases ht)
    fun hi => .inr ⟨(hs.settled v.bus hi).probes, (hs.settled v.bus hi).records⟩).sound
  blank s hs := s.queueSound_iff.mpr ⟨hs.recordsAtHome, hs.classesKept, hs.queuesFit, hs.idleSelected⟩
  assertReset s hs := by
    refine ⟨fun b => ?_, fun b hi => ?_⟩
    · rw [bus_assertReset]
      exact (hs.bus b).same rfl rfl rfl
    · rw [bus_assertReset] at hi
      refine (hs.settled b hi).mono (dueBefore_of_entry fun _ => rfl) fun t ht => ?_
      rwa [bus_assertReset] at ht

/-- Settles O55: each move keeps the records in order and a place for each that comes back, and selection is taken wherever an
IDLE engine comes to have eligible work. -/
theorem stepKeepsTheQueueLaws : Obligations.StepKeepsTheQueueLaws := by
  intro s t hs h
  rw [← State.queueSound_iff] at hs ⊢
  exact recordLaw_queues.deviceLaw.step hs h

end Sys2Proof.Machine
end

section
/-! SUPPORT. The laws of the pool and of the tickets: they read the origins of the records, in any order. -/

namespace Sys2Proof.Machine

/-! ### Origins -/

def Origin.ticket? : Origin → Option Nat
  | .host k => some k
  | .poll _ _ => none

/-- A record of this origin is taken from the pool by itself, not by its poll (R2). -/
def Origin.taken : Origin → Bool
  | .host _ => true
  | .poll _ o => o

def Origin.ofPoll (i : PollIndex) : Origin → Bool
  | .host _ => false
  | .poll j o => j == i && !o

theorem Txn.ticket?_origin (t : Txn) : t.ticket? = t.origin.ticket? := by
  unfold Txn.ticket? Origin.ticket?
  cases t.origin <;> rfl

theorem Txn.taken_origin (t : Txn) : (t.isHost || t.isOrphan) = t.origin.taken := by
  unfold Txn.isHost Txn.isOrphan Origin.taken
  cases t.origin <;> rfl

theorem Txn.ofPoll_origin (t : Txn) (i : PollIndex) : t.ofPoll i = t.origin.ofPoll i := by
  unfold Txn.ofPoll Origin.ofPoll
  cases t.origin <;> rfl

/-- The origins of the hub's records. -/
def State.origins (s : State) : List Origin := s.records.map Txn.origin

/-- The tickets in use, those of the records with these origins among them. -/
def State.ticketsWith (s : State) (os : List Origin) : List Nat :=
  os.filterMap Origin.ticket? ++ s.waitList.filterMap (fun d => d.record.ticket?) ++ s.store.map Completion.ticket

theorem ticketsWith_origins (s : State) : s.ticketsWith s.origins = s.ticketsInUse := by
  rw [State.ticketsWith, State.ticketsInUse, State.origins, List.filterMap_map]
  exact congrArg (fun l => l ++ _ ++ _) (List.filterMap_congr fun t _ => t.ticket?_origin.symm)

/-- The laws of the pool and the tickets, the records being those of these origins (R2, R6, R25, R79, R81). -/
structure PoolLaw (os : List Origin) (s : State) : Prop where
  unorphaned : ∀ b, ∀ t ∈ (s.bus b).queue, t.isOrphan = false
  polls : ∀ i, os.countP (Origin.ofPoll i) ≤ if (s.poll i).isSome then 1 else 0
  pool : os.countP Origin.taken + s.waitList.length + s.pollsOn ≤ 48
  store : s.StoreOrdered
  waiters : s.WaitersAreHost
  distinct : (s.ticketsWith os).Nodup
  range : ∀ k ∈ s.ticketsWith os, 1 ≤ k ∧ k ≤ 65535
  counter : 1 ≤ s.nextTicket ∧ s.nextTicket ≤ 65535

theorem countP_origins (s : State) (p : Origin → Bool) :
    s.origins.countP p = s.records.countP fun t => p t.origin := List.countP_map

theorem poolLaw_iff (s : State) :
    PoolLaw s.origins s ↔
      s.PollRecordsHeld ∧ s.PoolHolds ∧ s.StoreOrdered ∧ s.WaitersAreHost ∧ s.TicketsDistinct := by
  have hpoll (i : PollIndex) : s.origins.countP (Origin.ofPoll i) = s.records.countP fun t => t.ofPoll i :=
    (countP_origins s _).trans (List.countP_congr fun t _ => by rw [t.ofPoll_origin])
  have htaken : s.origins.countP Origin.taken = s.records.countP fun t => t.isHost || t.isOrphan :=
    (countP_origins s _).trans (List.countP_congr fun t _ => by rw [t.taken_origin])
  constructor
  · rintro ⟨hu, hp, hpool, hst, hw, hd, hr, hc⟩
    rw [ticketsWith_origins] at hd hr
    rw [htaken] at hpool
    exact ⟨⟨hu, fun i => hpoll i ▸ hp i⟩, hpool, hst, hw, hd, hr, hc.1, hc.2⟩
  · rintro ⟨⟨hu, hp⟩, hpool, hst, hw, hd, hr, h1, h2⟩
    refine ⟨hu, fun i => (hpoll i).symm ▸ hp i, ?_, hst, hw, ?_, ?_, h1, h2⟩
    · rw [htaken]
      exact hpool
    · rw [ticketsWith_origins]
      exact hd
    · rw [ticketsWith_origins]
      exact hr

/-- The record as it goes to the store or the wait list (R80). -/
def Txn.decided (t : Txn) (o : TxnOutcome) : Decided :=
  { record := { t with notBefore := none, cancelPending := false }, outcome := o }

theorem deliver_decided (s : State) (t : Txn) (o : TxnOutcome) :
    (s.store.length < Config.storePlaces ∧ s.waitList = [] ∧
      s.deliver t o = { s with store := s.store ++ completionsOf [t.decided o] }) ∨
    (¬ (s.store.length < Config.storePlaces ∧ s.waitList = []) ∧
      s.deliver t o = { s with waitList := s.waitList ++ [t.decided o] }) := deliver_cases s t o

theorem tickets_decided {t : Txn} {k : Nat} (ht : t.origin = .host k) (o : TxnOutcome) :
    [t.decided o].filterMap (fun d => d.record.ticket?) = [k] := by
  have hk : (t.decided o).record.ticket? = some k := (Txn.ticket?_origin _).trans (congrArg Origin.ticket? ht)
  simp [hk]

theorem ticketsWith_host (s : State) (k : Nat) (os : List Origin) :
    s.ticketsWith (.host k :: os) = k :: s.ticketsWith os := rfl

namespace PoolLaw
variable {os os' : List Origin} {s u : State}

theorem perm (hs : PoolLaw os s) (h : os.Perm os') : PoolLaw os' s := by
  have ht : (s.ticketsWith os).Perm (s.ticketsWith os') := ((h.filterMap _).append_right _).append_right _
  refine ⟨hs.unorphaned, fun i => ?_, ?_, hs.store, hs.waiters, ht.nodup_iff.mp hs.distinct,
    fun k hk => hs.range k (ht.mem_iff.mpr hk), hs.counter⟩
  · rw [← h.countP_eq]
    exact hs.polls i
  · rw [← h.countP_eq]
    exact hs.pool

theorem sublist (hs : PoolLaw os s) (h : os'.Sublist os) : PoolLaw os' s := by
  have ht : (s.ticketsWith os').Sublist (s.ticketsWith os) := ((h.filterMap _).append_right _).append_right _
  refine ⟨hs.unorphaned, fun i => Nat.le_trans h.countP_le (hs.polls i), ?_, hs.store, hs.waiters,
    ht.nodup hs.distinct, fun k hk => hs.range k (ht.subset hk), hs.counter⟩
  have := hs.pool
  have := h.countP_le (p := Origin.taken)
  omega

theorem pollsOn_congr (h : ∀ i, (u.poll i).isSome = (s.poll i).isSome) : u.pollsOn = s.pollsOn :=
  List.countP_congr fun i _ => by rw [h]

/-- A change of other parts. -/
theorem other (hs : PoolLaw os s) (hq : ∀ b, ∀ t ∈ (u.bus b).queue, t.isOrphan = false)
    (hp : ∀ i, (u.poll i).isSome = (s.poll i).isSome) (hst : u.store = s.store) (hw : u.waitList = s.waitList)
    (hn : u.nextTicket = s.nextTicket) : PoolLaw os u := by
  have ht : u.ticketsWith os = s.ticketsWith os := by rw [State.ticketsWith, State.ticketsWith, hst, hw]
  refine ⟨hq, fun i => hp i ▸ hs.polls i, ?_, ?_, ?_, ht ▸ hs.distinct, ht ▸ hs.range, hn ▸ hs.counter⟩
  · rw [hw, pollsOn_congr hp]
    exact hs.pool
  · rw [State.StoreOrdered, hst, hw]
    exact hs.store
  · rw [State.WaitersAreHost, hw]
    exact hs.waiters

/-! ### A record decided -/

theorem tickets_completionsOf (ds : List Decided) :
    (completionsOf ds).map Completion.ticket = ds.filterMap fun d => d.record.ticket? := by
  rw [completionsOf, List.map_filterMap]
  refine List.filterMap_congr fun d _ => ?_
  rw [Option.map_map]
  cases d.record.ticket? <;> rfl

/-- A HOST record's completion record enters the store, or its record joins the wait list (R79, R80). -/
theorem deliver {t : Txn} {k : Nat} (ht : t.origin = .host k) (o : TxnOutcome) (hs : PoolLaw (.host k :: os) s) :
    PoolLaw os (s.deliver t o) := by
  have hcount := hs.pool
  rw [List.countP_cons_of_pos rfl] at hcount
  have hpolls (i : PollIndex) : os.countP (Origin.ofPoll i) ≤ if (s.poll i).isSome then 1 else 0 := by
    have := hs.polls i
    rwa [List.countP_cons_of_neg (fun h => by cases h)] at this
  rcases deliver_decided s t o with ⟨hlen, hwait, h⟩ | ⟨hfull, h⟩
  · rw [h]
    have hperm : (s.ticketsWith (.host k :: os)).Perm
        (({ s with store := s.store ++ completionsOf [t.decided o] } : State).ticketsWith os) := by
      rw [ticketsWith_host, State.ticketsWith, State.ticketsWith]
      dsimp only
      rw [List.map_append, tickets_completionsOf, tickets_decided ht, ← List.append_assoc]
      exact (List.perm_append_singleton k _).symm
    refine ⟨hs.unorphaned, hpolls, ?_, ⟨?_, fun _ => hwait⟩, hs.waiters, hperm.nodup_iff.mp hs.distinct,
      fun j hj => hs.range j (hperm.mem_iff.mpr hj), hs.counter⟩
    · have hp : State.pollsOn { s with store := s.store ++ completionsOf [t.decided o] } = s.pollsOn := rfl
      rw [hp]
      dsimp only
      omega
    · have hle := List.length_filterMap_le (fun d : Decided => d.record.ticket?.map (completionOf d)) [t.decided o]
      rw [List.length_append]
      exact Nat.le_trans (Nat.add_le_add_left hle _) hlen
  · rw [h]
    have hperm : (s.ticketsWith (.host k :: os)).Perm
        (({ s with waitList := s.waitList ++ [t.decided o] } : State).ticketsWith os) := by
      rw [ticketsWith_host, State.ticketsWith, State.ticketsWith]
      dsimp only
      rw [List.filterMap_append, tickets_decided ht, ← List.append_assoc]
      exact (List.perm_append_singleton k _).symm.append_right _
    refine ⟨hs.unorphaned, hpolls, ?_, ⟨hs.store.1, fun hlen => absurd ⟨hlen, hs.store.2 hlen⟩ hfull⟩, fun d hd => ?_,
      hperm.nodup_iff.mp hs.distinct, fun j hj => hs.range j (hperm.mem_iff.mpr hj), hs.counter⟩
    · have hp : State.pollsOn { s with waitList := s.waitList ++ [t.decided o] } = s.pollsOn := rfl
      rw [hp]
      dsimp only
      rw [List.length_append, List.length_singleton]
      omega
    · rcases List.mem_append.mp hd with hd | hd
      · exact hs.waiters d hd
      · rw [List.mem_singleton.mp hd]
        exact Txn.isHost_of_host (t := (t.decided o).record) ht

theorem conclude {t : Txn} (o : TxnOutcome) (hs : PoolLaw (t.origin :: os) s) : PoolLaw os (s.conclude t o) := by
  unfold State.conclude
  split
  · rename_i k ht
    exact deliver ht o (ht ▸ hs)
  · rename_i i ht
    refine (hs.sublist (List.sublist_cons_self ..)).other hs.unorphaned (fun j => ?_) rfl rfl rfl
    have := congrArg Option.isSome ((quiet_pollOutcome s i o t.progress.readBytes).poll j)
    rwa [Option.isSome_map, Option.isSome_map] at this
  · exact hs.sublist (List.sublist_cons_self ..)

/-! ### The store refilled -/

/-- A refill takes completion records out and gives those of the records that waited, one for one (R79, R83). -/
theorem tickets_refill (os : List Origin) {taken stay : List Completion} (h : taken ++ stay = s.store) :
    ((s.refill taken stay).ticketsWith os).Subperm (s.ticketsWith os) := by
  have hw : s.waitList.filterMap (fun d => d.record.ticket?) =
      (s.waitList.take taken.length).filterMap (fun d => d.record.ticket?) ++
      (s.waitList.drop taken.length).filterMap (fun d => d.record.ticket?) := by
    rw [← List.filterMap_append, List.take_append_drop]
  rw [State.ticketsWith, State.ticketsWith, hw, ← h, State.refill, List.map_append, List.map_append,
    tickets_completionsOf]
  dsimp only
  generalize os.filterMap Origin.ticket? = a
  generalize (s.waitList.take taken.length).filterMap (fun d => d.record.ticket?) = c
  generalize (s.waitList.drop taken.length).filterMap (fun d => d.record.ticket?) = d
  generalize taken.map Completion.ticket = e
  generalize stay.map Completion.ticket = f
  refine List.Subperm.trans (l₂ := a ++ (c ++ d) ++ f) ?_ ?_
  · refine List.Perm.subperm ?_
    rw [List.append_assoc, List.append_assoc]
    refine List.Perm.append_left a ?_
    calc d ++ (f ++ c) = (d ++ f) ++ c := (List.append_assoc ..).symm
      _ |>.Perm (c ++ (d ++ f)) := List.perm_append_comm
      _ = c ++ d ++ f := (List.append_assoc ..).symm
  · exact ((List.sublist_append_right e f).append_left _).subperm

theorem refill {taken stay : List Completion} (h : taken ++ stay = s.store) (hs : PoolLaw os s) :
    PoolLaw os (s.refill taken stay) := by
  have hstore : s.store.length = taken.length + stay.length := by rw [← h, List.length_append]
  have hle := hs.store.1
  have hhosts : ∀ d ∈ s.waitList.take taken.length, d.record.isHost = true :=
    fun d hd => hs.waiters d (List.mem_of_mem_take hd)
  have hlen : (completionsOf (s.waitList.take taken.length)).length = min taken.length s.waitList.length := by
    rw [← (completionsOf_hosts hhosts).length_eq, List.length_take]
  have hsub := tickets_refill os h
  refine ⟨hs.unorphaned, hs.polls, ?_, ⟨?_, fun hlt => ?_⟩, fun d hd => hs.waiters d (List.mem_of_mem_drop hd), ?_,
    fun k hk => hs.range k (hsub.subset hk), hs.counter⟩
  · have hp : (s.refill taken stay).pollsOn = s.pollsOn := rfl
    have hd : (s.refill taken stay).waitList.length = s.waitList.length - taken.length := List.length_drop
    have := hs.pool
    rw [hp, hd]
    omega
  · have hl : (s.refill taken stay).store.length = stay.length + min taken.length s.waitList.length := by
      rw [State.refill, List.length_append, hlen]
    rw [hl]
    exact Nat.le_trans (by omega) hle
  · have hl : (s.refill taken stay).store.length = stay.length + min taken.length s.waitList.length := by
      rw [State.refill, List.length_append, hlen]
    have hc : Config.storePlaces = 24 := rfl
    rw [hl, hc] at hlt
    rw [hc] at hle
    refine List.drop_eq_nil_of_le ?_
    by_cases hfull : s.store.length < Config.storePlaces
    · rw [hs.store.2 hfull]
      exact Nat.zero_le _
    · rw [hc] at hfull
      omega
  · obtain ⟨l, hperm, hsl⟩ := hsub
    exact hperm.nodup_iff.mp (hsl.nodup hs.distinct)

end PoolLaw

end Sys2Proof.Machine
end

section
/-! SUPPORT. The laws of the pool and of the tickets are a law of the device. -/

namespace Sys2Proof.Machine

/-! ### The origins after a bus is written -/

/-- The records of one bus, and those of the others whatever that bus becomes. -/
theorem origins_split (s : State) (b : BusId) : ∃ l : List Origin,
    s.origins.Perm ((s.bus b).records.map Txn.origin ++ l) ∧
    ∀ x, (s.setBus b x).origins.Perm (x.records.map Txn.origin ++ l) := by
  obtain ⟨l₁, l₂, hsplit, h₁, h₂⟩ := allBuses_split b
  have origins_of (u : State) (hu : ∀ c, c ≠ b → u.bus c = s.bus c) : u.origins.Perm ((u.bus b).records.map Txn.origin ++
      (l₁.flatMap (fun c => (s.bus c).records) ++ l₂.flatMap fun c => (s.bus c).records).map Txn.origin) := by
    have hsame {l : List BusId} (hl : b ∉ l) :
        l.flatMap (fun c => (u.bus c).records) = l.flatMap fun c => (s.bus c).records :=
      List.flatMap_congr fun c hc => by rw [hu c fun h => hl (h ▸ hc)]
    rw [State.origins, State.records, hsplit, List.flatMap_append, List.flatMap_cons, hsame h₁, hsame h₂, ← List.map_append]
    refine List.Perm.map _ ?_
    rw [← List.append_assoc, ← List.append_assoc]
    exact List.perm_append_comm.append_right _
  refine ⟨_, origins_of s fun _ _ => rfl, fun x => ?_⟩
  have h := origins_of (s.setBus b x) fun c hc => State.bus_setBus_ne s x hc.symm
  rwa [State.bus_setBus_same] at h

/-- A bus written, its records' origins and those in hand together what they were. -/
theorem origins_setBus {s : State} {b : BusId} {x : Bus} {os os' : List Origin}
    (h : (os' ++ x.records.map Txn.origin).Perm (os ++ (s.bus b).records.map Txn.origin)) :
    (os' ++ (s.setBus b x).origins).Perm (os ++ s.origins) := by
  obtain ⟨l, hs, hx⟩ := origins_split s b
  calc os' ++ (s.setBus b x).origins
    _ |>.Perm (os' ++ (x.records.map Txn.origin ++ l)) := (hx x).append_left _
    _ |>.Perm (os ++ ((s.bus b).records.map Txn.origin ++ l)) := by
      rw [← List.append_assoc, ← List.append_assoc]
      exact h.append_right _
    _ |>.Perm (os ++ s.origins) := hs.symm.append_left _

theorem origins_congr {s u : State} (h : ∀ b, (u.bus b).records.map Txn.origin = (s.bus b).records.map Txn.origin) :
    u.origins = s.origins := by
  rw [State.origins, State.origins, State.records, State.records, List.map_flatMap, List.map_flatMap]
  exact List.flatMap_congr fun b _ => h b

theorem origins_of_buses {s u : State} (h : u.buses = s.buses) : u.origins = s.origins :=
  origins_congr fun b => by rw [State.bus, State.bus, h]

theorem origins_records {x y : Bus} (hq : y.queue.map Txn.origin = x.queue.map Txn.origin)
    (he : y.engine.record?.map Txn.origin = x.engine.record?.map Txn.origin) :
    y.records.map Txn.origin = x.records.map Txn.origin := by
  rw [Bus.records, Bus.records, List.map_append, List.map_append, hq, ← Option.toList_map, ← Option.toList_map, he]

/-- The origins in hand and in the hub. -/
def Hand.origins (k : Hand) (s : State) : List Origin := k.records.map Txn.origin ++ s.origins

/-- The laws of the pool, the records in hand counted with the others. -/
def PoolHeld (k : Hand) (s : State) : Prop := PoolLaw (k.origins s) s

def State.PoolSound (s : State) : Prop := PoolLaw s.origins s

namespace PoolHeld
variable {k l : Hand} {s u : State}

theorem queue_setBus {b : BusId} {x : Bus} {os : List Origin} (hs : PoolLaw os s)
    (hx : ∀ t ∈ x.queue, t.isOrphan = false) : ∀ c, ∀ t ∈ ((s.setBus b x).bus c).queue, t.isOrphan = false :=
  forall_bus_setBus (R := fun _ y => ∀ t ∈ y.queue, t.isOrphan = false) hx hs.unorphaned

/-- A bus written, its records and those in hand together what they were. -/
theorem setBus {b : BusId} {x : Bus} (hs : PoolHeld k s) (hx : ∀ t ∈ x.queue, t.isOrphan = false)
    (h : (l.records.map Txn.origin ++ x.records.map Txn.origin).Perm
      (k.records.map Txn.origin ++ (s.bus b).records.map Txn.origin)) : PoolHeld l (s.setBus b x) :=
  (PoolLaw.perm hs (origins_setBus h).symm).other (queue_setBus hs hx) (fun _ => rfl) rfl rfl rfl

/-- A change of other parts, with the hand as it was. -/
theorem other (hs : PoolHeld k s) (hb : u.buses = s.buses) (hp : ∀ i, (u.poll i).isSome = (s.poll i).isSome)
    (hst : u.store = s.store) (hw : u.waitList = s.waitList) (hn : u.nextTicket = s.nextTicket)
    (hr : l.records = k.records) : PoolHeld l u := by
  have ho : l.origins u = k.origins s := by rw [Hand.origins, Hand.origins, hr, origins_of_buses hb]
  rw [PoolHeld, ho]
  refine PoolLaw.other hs (fun b => ?_) hp hst hw hn
  rw [State.bus, hb]
  exact hs.unorphaned b

theorem quiet (h : Quiet s u) (hs : PoolHeld k s) : PoolHeld k u := by
  have ho : k.origins u = k.origins s := by
    refine congrArg (k.records.map Txn.origin ++ ·) (origins_congr fun b => origins_records ?_ ?_)
    · rw [Bus.queue, Bus.queue, h.urgent, h.routine]
    · have := congrArg (Option.map fun c : Origin × Handle × BusId => c.1) (h.record b)
      rwa [Option.map_map, Option.map_map] at this
  rw [PoolHeld, ho]
  refine PoolLaw.other hs (fun b => ?_) (fun i => ?_) h.store h.waitList h.nextTicket
  · rw [Bus.queue, h.urgent, h.routine]
    exact hs.unorphaned b
  · have := congrArg Option.isSome (h.poll i)
    rwa [Option.isSome_map, Option.isSome_map] at this

theorem sound_iff (b : BusId) (p : Option Handle) (g : Bool) : PoolHeld ⟨b, [], p, g⟩ s ↔ s.PoolSound := Iff.rfl

theorem leave {b : BusId} {x : Bus} (hx : (s.bus b).Left x) (hs : s.PoolSound) (p : Option Handle) (g : Bool) :
    PoolHeld ⟨b, (s.bus b).engine.record?.toList, p, g⟩ (s.setBus b x) := by
  have hq : x.queue = (s.bus b).queue := by rw [Bus.queue, Bus.queue, hx.urgent, hx.routine]
  refine setBus (k := ⟨b, [], p, g⟩) hs (hq ▸ hs.unorphaned b) ?_
  rw [Bus.records, Bus.records, hx.record, hq, ← List.map_append, List.map_nil, List.nil_append]
  exact (List.perm_append_comm.trans (by rw [Option.toList_none, List.append_nil])).map _

theorem conclude {b : BusId} {t t' : Txn} {ts : List Txn} {p : Option Handle} {g : Bool} (o : TxnOutcome)
    (hc : t'.core = t.core) (hs : PoolHeld ⟨b, t :: ts, p, g⟩ s) : PoolHeld ⟨b, ts, p, g⟩ (s.conclude t' o) := by
  have ho : (s.conclude t' o).origins = s.origins := by
    obtain ⟨st, wl, ps, h⟩ := conclude_frame s t' o
    rw [h]
    rfl
  rw [PoolHeld, Hand.origins, ho]
  refine PoolLaw.conclude o ?_
  rw [(Txn.core_eq.mp hc).1]
  exact hs

theorem free {b : BusId} {t : Txn} {ts : List Txn} {p : Option Handle} {g : Bool} (hs : PoolHeld ⟨b, t :: ts, p, g⟩ s) :
    PoolHeld ⟨b, ts, p, g⟩ s := PoolLaw.sublist hs (List.sublist_cons_self ..)

theorem place {b : BusId} {t t' : Txn} {ts : List Txn} {p : Option Handle} {g : Bool} (pl : Placement)
    (hc : t'.core = t.core) (ho : t'.isOrphan = false) (hs : PoolHeld ⟨b, t :: ts, p, g⟩ s) :
    PoolHeld ⟨b, ts, p, g⟩ (s.setBus t'.bus ((s.bus t'.bus).place t' pl)) := by
  obtain ⟨n, hj⟩ := joined_place (s.bus t'.bus) t' pl
  refine hs.setBus (fun u hu => ?_) ?_
  · rcases List.mem_cons.mp (hj.queue.mem_iff.mp hu) with rfl | hu
    · exact ho
    · exact hs.unorphaned _ u hu
  · have hperm := (hj.records.map Txn.origin).append_left (ts.map Txn.origin)
    have horigin : ({ t' with notBefore := n } : Txn).origin = t.origin := (Txn.core_eq.mp hc).1
    rw [List.map_cons, horigin] at hperm
    exact hperm.trans List.perm_middle

/-- A new record joins a queue. -/
theorem joinTail {b : BusId} {t : Txn} (p : Option Handle) (g : Bool) (hs : PoolLaw (t.origin :: s.origins) s)
    (ho : t.isOrphan = false) : PoolHeld ⟨b, [], p, g⟩ (s.setBus b ((s.bus b).joinTail t)) := by
  have hj := joined_joinTail (s.bus b) t
  refine setBus (k := ⟨b, [t], p, g⟩) hs (fun u hu => ?_) (hj.records.map Txn.origin)
  rcases List.mem_cons.mp (hj.queue.mem_iff.mp hu) with rfl | hu
  · exact ho
  · exact hs.unorphaned _ u hu

theorem giveUpProbe {b : BusId} {h : Handle} {ts : List Txn} {g : Bool} (hs : PoolHeld ⟨b, ts, some h, g⟩ s) :
    PoolHeld ⟨b, ts, none, g⟩ (s.giveUpProbe b h) := by
  obtain ⟨d, hd⟩ := giveUpProbe_frame s b h
  rw [hd]
  exact hs.other (u := { s with directory := d }) rfl (fun _ => rfl) rfl rfl rfl rfl

theorem select {b : BusId} {g : Bool} (hs : PoolHeld ⟨b, [], none, g⟩ s) : (s.select b).PoolSound := by
  rcases select_cases s b with h | ⟨h, hi, -, he⟩ | ⟨t, x, hi, -, hc, he⟩
  · rw [h]
    exact hs
  · rw [he]
    have hissued : PoolHeld ⟨b, [], none, g⟩ (s.setEntry h ((s.entry h).map fun e => { e with probe := .issued })) :=
      hs.other rfl (fun _ => rfl) rfl rfl rfl rfl
    refine hissued.setBus (l := ⟨b, [], none, g⟩) (x := { s.bus b with engine := .idle (some (.probe h)) })
      (hs.unorphaned b) (.of_eq (congrArg _ (origins_records rfl ?_)))
    exact (congrArg (fun e : Engine => e.record?.map Txn.origin) hi).symm
  · rw [he]
    obtain ⟨-, before, after, hx⟩ := chooseRecord_some hc
    have hperm : (s.bus b).queue.Perm (t :: x.queue) := by
      rcases hx with ⟨hl, rfl⟩ | ⟨hl, rfl⟩
      · rw [Bus.queue, hl]
        exact List.perm_middle.append_right _
      · rw [Bus.queue, hl]
        exact (List.perm_middle.append_left _).trans List.perm_middle
    refine hs.setBus (l := ⟨b, [], none, g⟩)
      (x := { x with engine := .idle (some (.record { t with progress := Progress.zero })) })
      (fun u hu => hs.unorphaned b u (hperm.mem_iff.mpr (List.mem_cons_of_mem _ hu))) ?_
    rw [Bus.records, Bus.records, hi]
    refine .append_left _ ?_
    rw [List.map_append, List.map_append]
    refine List.Perm.trans ?_ ((hperm.map Txn.origin).append_right _).symm
    exact (List.perm_append_singleton t.origin _).trans (.of_eq (List.append_nil _).symm)

theorem takeOut {b : BusId} (p : Txn → Bool) (hs : s.PoolSound) :
    PoolHeld ⟨b, (s.bus b).queue.filter p, none, false⟩ (s.setBus b ((s.bus b).dropQueued p)) := by
  have hq : ((s.bus b).dropQueued p).queue = (s.bus b).queue.filter fun t => !p t := by
    rw [Bus.dropQueued, Bus.queue, Bus.queue, List.filter_append]
  refine setBus (k := ⟨b, [], none, false⟩) hs (fun t ht => ?_) ?_
  · rw [hq] at ht
    exact hs.unorphaned b t (List.mem_filter.mp ht).1
  · rw [List.map_nil, List.nil_append, ← List.map_append, Bus.records, Bus.records, hq, ← List.append_assoc]
    exact ((List.filter_append_perm p _).append_right _).map _

theorem requeue {b : BusId} (p : Txn → Bool) (hs : s.PoolSound) :
    PoolHeld ⟨b, [], none, true⟩ (s.setBus b ((s.bus b).mapQueued p fun t => { t with notBefore := none })) := by
  have hq : ((s.bus b).mapQueued p fun t => { t with notBefore := none }).queue =
      (s.bus b).queue.map fun t => if p t then { t with notBefore := none } else t := by
    rw [Bus.mapQueued, Bus.queue, Bus.queue, List.map_append]
  have horigin (t : Txn) : (if p t then { t with notBefore := none } else t).origin = t.origin := by
    split <;> rfl
  refine setBus (k := ⟨b, [], none, true⟩) hs (fun t ht => ?_) (.of_eq (congrArg _ (origins_records ?_ rfl)))
  · rw [hq] at ht
    obtain ⟨u, hu, rfl⟩ := List.mem_map.mp ht
    have := hs.unorphaned b u hu
    rw [Txn.isOrphan, horigin]
    exact this
  · rw [hq, List.map_map]
    exact List.map_congr_left fun t _ => horigin t

end PoolHeld

end Sys2Proof.Machine
end

section
/-! SUPPORT. Tickets issued, polls turned on and off, and the law. -/

namespace Sys2Proof.Machine

/-! ### A record filed -/

namespace State.PoolSound
variable {s u : State} (hs : s.PoolSound)
include hs

/-- At most 48 records and 24 completion records hold tickets (R2, R79). -/
theorem tickets_few : s.ticketsInUse.length < 65535 := by
  have horigins : (s.origins.filterMap Origin.ticket?).length ≤ s.origins.countP Origin.taken := by
    rw [List.length_filterMap_eq_countP]
    refine List.countP_mono_left fun o _ ho => ?_
    cases o with
    | host k => rfl
    | poll i orphaned => cases ho
  have hwait := List.length_filterMap_le (fun d : Decided => d.record.ticket?) s.waitList
  have hstore : s.store.length ≤ 24 := hs.store.1
  have hpool := hs.pool
  rw [← ticketsWith_origins, State.ticketsWith, List.length_append, List.length_append, List.length_map]
  omega

/-- A HOST record with the ticket issued now (R6). -/
theorem issued (hfree : s.freeRecords ≠ 0) :
    PoolLaw (.host s.issueTicket :: s.origins) { s with nextTicket := ticketAfter s.issueTicket } := by
  obtain ⟨hnew, h1, h2, -⟩ := ticketIssuedIsTheFirstFree s hs.counter.1 hs.counter.2 hs.tickets_few
  have hroom : s.origins.countP Origin.taken + s.waitList.length + s.pollsOn < 48 := by
    have hpool : s.recordsTaken < 48 := Nat.lt_of_not_le fun h => hfree ((State.freeRecords_eq_zero_iff s).mpr h)
    have htaken : s.origins.countP Origin.taken = s.records.countP fun t => t.isHost || t.isOrphan :=
      (countP_origins s _).trans (List.countP_congr fun t _ => by rw [t.taken_origin])
    rw [htaken]
    exact hpool
  have ht : ({ s with nextTicket := ticketAfter s.issueTicket } : State).ticketsWith (.host s.issueTicket :: s.origins) =
      s.issueTicket :: s.ticketsInUse := by
    rw [ticketsWith_host, ← ticketsWith_origins]
    rfl
  refine ⟨hs.unorphaned, fun i => ?_, ?_, hs.store, hs.waiters, ?_, fun k hk => ?_, ?_⟩
  · rw [List.countP_cons_of_neg (fun h => by cases h)]
    exact hs.polls i
  · rw [List.countP_cons_of_pos rfl]
    have hp : State.pollsOn { s with nextTicket := ticketAfter s.issueTicket } = s.pollsOn := rfl
    rw [hp]
    dsimp only
    omega
  · rw [ht]
    exact List.nodup_cons.mpr ⟨hnew, ticketsWith_origins s ▸ hs.distinct⟩
  · rw [ht] at hk
    rcases List.mem_cons.mp hk with rfl | hk
    · exact ⟨h1, h2⟩
    · exact hs.range k (ticketsWith_origins s ▸ hk)
  · unfold ticketAfter
    dsimp only
    split <;> omega

/-- The reserved record of a poll that is on (R112). -/
theorem instanced {i : PollIndex} {p : Poll} (hp : s.poll i = some p)
    (hres : ∀ t ∈ s.records, t.origin ≠ .poll i false) : PoolLaw (.poll i false :: s.origins) s := by
  have hnone : s.origins.countP (Origin.ofPoll i) = 0 := by
    rw [List.countP_eq_zero]
    intro o ho hi
    obtain ⟨t, ht, rfl⟩ := List.mem_map.mp ho
    rw [← Txn.ofPoll_origin, Txn.ofPoll_iff] at hi
    exact hres t ht hi
  refine ⟨hs.unorphaned, fun j => ?_, ?_, hs.store, hs.waiters, hs.distinct, hs.range, hs.counter⟩
  · by_cases hj : i = j
    · subst hj
      rw [List.countP_cons_of_pos (by simp [Origin.ofPoll]), hnone, hp]
      exact Nat.le_refl 1
    · rw [List.countP_cons_of_neg (by simp [Origin.ofPoll, hj])]
      exact hs.polls j
  · rw [List.countP_cons_of_neg (by simp [Origin.taken])]
    exact hs.pool

/-! ### Polls turned on and off -/

theorem pollSet {i : PollIndex} (p : Poll) (hoff : s.poll i = none) (hfree : s.freeRecords ≠ 0) :
    (s.setPoll i (some p)).PoolSound := by
  obtain ⟨⟨hq, hp⟩, hpool, hst, hw, ht⟩ := (poolLaw_iff s).mp hs
  refine (poolLaw_iff _).mpr ⟨⟨hq, fun j => ?_⟩, ?_, hst, hw, ht⟩
  · rw [State.poll_setPoll]
    by_cases hj : i = j
    · have hnone := hp j
      rw [← hj, hoff] at hnone
      rw [if_pos hj, ← hj]
      exact Nat.le_trans hnone (Nat.zero_le 1)
    · rw [if_neg hj]
      exact hp j
  · rw [State.PoolHolds, State.recordsTaken_setPoll_some hoff]
    have := (State.freeRecords_eq_zero_iff s).not.mp hfree
    exact Nat.lt_of_not_le this

end State.PoolSound

/-- The origin of a record whose poll is turned off (R25). -/
def Origin.orphaned (i : PollIndex) : Origin → Origin
  | .host k => .host k
  | .poll j o => .poll j (o || j == i)

theorem Origin.orphaned_of_not_ofPoll {i : PollIndex} {o : Origin} (h : o.ofPoll i = false) : o.orphaned i = o := by
  cases o with
  | host k => rfl
  | poll j b =>
    cases b
    · have hj : (j == i) = false := by simpa [Origin.ofPoll] using h
      simp [Origin.orphaned, hj]
    · rfl

theorem origin_released (i : PollIndex) (t : Txn) :
    (if t.ofPoll i then t.orphan else t).origin = t.origin.orphaned i := by
  split
  · rename_i h
    have ho := (t.ofPoll_iff i).mp h
    rw [Txn.orphan_of_poll ho, ho]
    simp [Origin.orphaned]
  · rename_i h
    rw [Origin.orphaned_of_not_ofPoll]
    rw [← Txn.ofPoll_origin]
    exact Bool.eq_false_iff.mpr h

/-- With its poll turned off, a record goes from the queue or is orphaned in its engine. -/
theorem origins_pollOff {s : State} {i : PollIndex} (hon : s.poll i ≠ none) :
    (s.pollOff i).origins.Sublist (s.origins.map (Origin.orphaned i)) := by
  have hbus (b : BusId) : (((s.pollOff i).bus b).records.map Txn.origin).Sublist
      (((s.bus b).records.map Txn.origin).map (Origin.orphaned i)) := by
    have hq : ((s.bus b).releasePoll i).queue = (s.bus b).queue.filter fun t => !t.ofPoll i := by
      rw [Bus.releasePoll, Bus.dropQueued, Bus.queue, Bus.queue, List.filter_append]
    rw [bus_pollOff hon, Bus.records, Bus.records, releasePoll_engine, Engine.record?_mapRecord, hq, List.map_append,
      List.map_append, List.map_append, List.map_map, List.map_map]
    have hrecord : ((s.bus b).engine.record?.map fun t => if t.ofPoll i then t.orphan else t).toList.map Txn.origin =
        (s.bus b).engine.record?.toList.map (Origin.orphaned i ∘ Txn.origin) := by
      rw [← Option.toList_map, ← Option.toList_map, Option.map_map]
      exact congrArg Option.toList (Option.map_congr fun t _ => origin_released i t)
    rw [hrecord]
    have hkept : ((s.bus b).queue.filter fun t => !t.ofPoll i).map Txn.origin =
        ((s.bus b).queue.filter fun t => !t.ofPoll i).map (Origin.orphaned i ∘ Txn.origin) := by
      refine List.map_congr_left fun t ht => (Origin.orphaned_of_not_ofPoll ?_).symm
      rw [← Txn.ofPoll_origin]
      simpa using (List.mem_filter.mp ht).2
    rw [hkept]
    exact List.Sublist.append (List.filter_sublist.map _) (.refl _)
  rw [State.origins, State.origins, State.records, State.records, List.map_flatMap, List.map_flatMap, List.map_flatMap]
  exact List.Sublist.flatMap_right _ fun b _ => hbus b

theorem pollsOn_pollOff {s : State} {i : PollIndex} (hon : s.poll i ≠ none) : s.pollsOn = (s.pollOff i).pollsOn + 1 :=
  countP_eq_succ_of_ne (List.nodup_finRange 16) (List.mem_finRange i) (by rw [poll_pollOff hon, if_pos rfl]; rfl)
    (Option.isSome_iff_ne_none.mpr hon) fun j hj => by rw [poll_pollOff hon, if_neg hj]

/-- An orphaned record is taken from the pool by itself, where it was its poll's before (R2, R25). -/
theorem countP_orphaned (i : PollIndex) (os : List Origin) :
    (os.map (Origin.orphaned i)).countP Origin.taken = os.countP Origin.taken + os.countP (Origin.ofPoll i) := by
  induction os with
  | nil => rfl
  | cons o os ih =>
    rw [List.map_cons, List.countP_cons, List.countP_cons, List.countP_cons, ih]
    have hone : (if (o.orphaned i).taken = true then 1 else 0) =
        (if o.taken = true then 1 else 0) + if o.ofPoll i = true then 1 else 0 := by
      cases o with
      | host k => rfl
      | poll j b => cases b <;> cases hj : j == i <;> simp [Origin.orphaned, Origin.taken, Origin.ofPoll, hj]
    omega

theorem countP_ofPoll_orphaned (i j : PollIndex) (os : List Origin) :
    (os.map (Origin.orphaned i)).countP (Origin.ofPoll j) = if i = j then 0 else os.countP (Origin.ofPoll j) := by
  rw [List.countP_map]
  split
  · rename_i h
    subst h
    rw [List.countP_eq_zero]
    intro o _
    cases o with
    | host k => simp [Origin.orphaned, Origin.ofPoll]
    | poll k b =>
      simp only [Function.comp_apply, Origin.orphaned, Origin.ofPoll]
      cases hk : k == i <;> simp
  · rename_i h
    refine List.countP_congr fun o _ => ?_
    cases o with
    | host k => rfl
    | poll k b =>
      have hk : k = j → (k == i) = false := fun hk => by rw [hk]; exact beq_false_of_ne fun h' => h h'.symm
      by_cases hkj : k = j
      · simp [Origin.orphaned, Origin.ofPoll, hk hkj]
      · simp [Origin.orphaned, Origin.ofPoll, hkj]

theorem ticket?_orphaned (i : PollIndex) (o : Origin) : (o.orphaned i).ticket? = o.ticket? := by
  cases o <;> rfl

theorem State.PoolSound.pollOff {s : State} {i : PollIndex} (hs : s.PoolSound) (hon : s.poll i ≠ none) :
    (s.pollOff i).PoolSound := by
  have hst : (s.pollOff i).store = s.store := by rw [pollOff_frame]
  have hw : (s.pollOff i).waitList = s.waitList := by rw [pollOff_frame]
  have hn : (s.pollOff i).nextTicket = s.nextTicket := by rw [pollOff_frame]
  have ht : (s.pollOff i).ticketsWith (s.origins.map (Origin.orphaned i)) = s.ticketsWith s.origins := by
    rw [State.ticketsWith, State.ticketsWith, hst, hw, List.filterMap_map]
    exact congrArg (fun l => l ++ _ ++ _) (List.filterMap_congr fun o _ => ticket?_orphaned i o)
  have horphaned : PoolLaw (s.origins.map (Origin.orphaned i)) (s.pollOff i) := by
    refine ⟨fun b t hmem => ?_, fun j => ?_, ?_, ?_, ?_, ht ▸ hs.distinct, ht ▸ hs.range, hn ▸ hs.counter⟩
    · rw [bus_pollOff hon, Bus.releasePoll, Bus.dropQueued, Bus.queue, ← List.filter_append] at hmem
      exact hs.unorphaned b t (List.mem_filter.mp hmem).1
    · rw [countP_ofPoll_orphaned, poll_pollOff hon]
      by_cases hj : i = j
      · rw [if_pos hj]
        exact Nat.zero_le _
      · have hj' : j ≠ i := fun h => hj h.symm
        rw [if_neg hj]
        simp only [hj', if_false]
        exact hs.polls j
    · have hone := hs.polls i
      rw [if_pos (Option.isSome_iff_ne_none.mpr hon)] at hone
      have hpool := hs.pool
      have hpolls := pollsOn_pollOff hon
      rw [countP_orphaned, hw]
      omega
    · rw [State.StoreOrdered, hst, hw]
      exact hs.store
    · rw [State.WaitersAreHost, hw]
      exact hs.waiters
  exact horphaned.sublist (origins_pollOff hon)

/-! ### The law -/

/-- A change of the directory and of the polls' readings. -/
theorem State.PoolSound.kept {s u : State} (hs : s.PoolSound) (hb : u.buses = s.buses)
    (hp : ∀ i, (u.poll i).isSome = (s.poll i).isSome) (hst : u.store = s.store) (hw : u.waitList = s.waitList)
    (hn : u.nextTicket = s.nextTicket) : u.PoolSound :=
  PoolHeld.other (k := ⟨0, [], none, false⟩) (l := ⟨0, [], none, false⟩) hs hb hp hst hw hn rfl

theorem isSome_mapPolls (s : State) (f : Poll → Poll) (i : PollIndex) : ((s.mapPolls f).poll i).isSome = (s.poll i).isSome := by
  rw [State.poll_mapPolls, Option.isSome_map]

theorem recordLaw_pool : RecordLaw State.PoolSound PoolHeld where
  device s := (poolLaw_iff s).trans (Iff.trans Iff.rfl (poolLaw_iff s.device).symm)
  empty b s := PoolHeld.sound_iff b none false
  quiet h hs := hs.quiet h
  leave hx hs := .leave hx hs _ _
  conclude o hc hs := hs.conclude o hc
  free hs := hs.free
  place pl hc _ ho _ hs := hs.place pl hc ho
  giveUpProbe _ hs := hs.giveUpProbe
  endProbe _ hs := hs
  select hs := hs.select
  filed {s t e} _ _ _ hfree ho _ hs := by
    refine PoolHeld.joinTail (s := { s with nextTicket := ticketAfter s.issueTicket }) none true ?_ (Txn.isOrphan_of_host ho)
    rw [ho]
    exact hs.issued hfree
  called {s i p t e} hp _ _ hres _ ho _ _ hs := by
    refine PoolHeld.joinTail none true ?_ (Txn.isOrphan_of_poll ho)
    rw [ho]
    exact hs.instanced hp hres
  requeue p hs := PoolHeld.requeue p hs
  probeDue _ _ hs := hs.kept rfl (fun _ => rfl) rfl rfl rfl
  takeOut p hs := PoolHeld.takeOut p hs
  unissued _ _ _ hs := hs.kept rfl (fun _ => rfl) rfl rfl rfl
  release {s h e} _ hs := hs.kept rfl (isSome_mapPolls (s.setEntry h (some e.back)) _) rfl rfl rfl
  markOut {s h e} n _ _ _ hs := hs.kept rfl (isSome_mapPolls (s.setEntry h (some (e.out n))) _) rfl rfl rfl
  refill h hs := PoolLaw.refill h hs
  pollSet hoff _ hfree hs := hs.pollSet _ hoff hfree
  pollOff hon hs := hs.pollOff hon
  targetAdded _ _ _ _ _ hs := hs.kept rfl (fun _ => rfl) rfl rfl rfl
  targetRemoved _ _ hs := hs.kept rfl (fun _ => rfl) rfl rfl rfl
  listenSet {s v} _ hs := PoolHeld.setBus (k := ⟨0, [], none, false⟩) (l := ⟨0, [], none, false⟩) (x := { s.bus v.bus with
    ownAddress := v.ownAddress, broadcastAccept := v.broadcastAccept }) hs (hs.unorphaned v.bus) (.refl _)
  blank s hs := (poolLaw_iff s).mpr ⟨hs.pollRecordsHeld, hs.poolHolds, hs.storeOrdered, hs.waitersAreHost, hs.ticketsDistinct⟩
  assertReset s hs := by
    have ho : s.assertReset.origins = s.origins := origins_congr fun b => by
      rw [bus_assertReset]
      rfl
    rw [State.PoolSound, ho]
    refine PoolLaw.other hs (fun b => ?_) (fun _ => rfl) rfl rfl rfl
    rw [bus_assertReset]
    exact hs.unorphaned b

/-- Settles O56: each move keeps the origins of the records, but for those that end, are filed or are orphaned. -/
theorem stepKeepsThePoolAndTicketLaws : Obligations.StepKeepsThePoolAndTicketLaws := by
  intro s t hs h
  rw [← poolLaw_iff] at hs ⊢
  exact recordLaw_pool.deviceLaw.step hs h

end Sys2Proof.Machine
end
